-- ==== Sys2Proof/Word.lean ====
section
/-! DEFINITION. The word of the block, its byte, and the two levels of a line. Every register and every duration is
32 bits (spec/00_scope.md R7, parameter W). -/

namespace Sys2Proof

/-- A register, a tick count or a segment duration (00 R7: W = 32). -/
abbrev Word := BitVec 32

/-- A decoded byte (43 R174). -/
abbrev Byte := BitVec 8

/-- A line level, the source's LineLevel: "binary: 0 (low) or 1 (high)" (30 R73). -/
inductive Level where
  | low
  | high
  deriving DecidableEq, Repr, Inhabited

end Sys2Proof
end

