-- ==== Sys2Proof/Config.lean ====
section
/-! DEFINITION. What an implementation of the block fixes (spec/00_scope.md R7) and the free values, which the spec
leaves open: opaque constants with no body, so that nothing in Lean can evaluate one or prove a value of it
(spec/93_implementation_defined.md: "any value", "parameter"). -/

namespace Sys2Proof.Config

/-- `B`, the protocol's data-bit count (00 R7). -/
def dataBits : Nat := 40

/-- `SEG_CAP` = B + 1, the segment log capacity (00 R7, 10 R33). -/
def segCap : Nat := 41

/-- Reset value of BREAK_THR, in ticks (00 R7, 10 R25). -/
def breakThrReset : Word := 500#32

/-- Reset value of BIT_THR, in ticks (00 R7, 10 R26). -/
def bitThrReset : Word := 50#32

/-- `SLEEP_BUSY_MAX`, host only: a host sleep of fewer ticks than this is a pure busy-poll (00 R7, 40 R107, 90 C3). DESIGN
CHOICE (log 19): 93 I3 and I4 call it a parameter; the model takes the value that R7 gives. -/
def sleepBusyMax : Nat := 400

/-- `NORESP_COUNT`, host only: the initial value of the host's no-response countdown (00 R7, 60 R246). DESIGN CHOICE (log
19): 93 I3 calls it a parameter; the model takes the value that R7 gives, for the reload of CORRUPT_RELOAD = 1 as well. -/
def norespCount : Nat := 10

/-- `BASE`, the host bus address of register offset 0x00: OPEN, no rule of the block depends on it (20 R50; log 11). -/
opaque base : Nat

/-- `LINE_ID`, which physical GPIO line the port is wired to: OPEN (00 R7; log 11). -/
opaque lineId : Nat

/-- `TICK_HZ`, tick instants per second: 1 000 000 on the reference platform, OPEN otherwise; the block never uses it
(20 R57; log 11). -/
opaque tickHz : Nat

/-- What a reset leaves open (70 R261): `TICK_RESET`, one draw per entry of the segment log, and the hidden registers,
which are written before any read. A reset takes them as an argument (`State.resetWith`). -/
structure ResetDraws where
  tick : Word
  seg : Vector Word 41
  sstart : Word
  dacc : Word
  dlast : Word
  deriving DecidableEq, Repr

/-- The draws of `State.reset`. DESIGN CHOICE (log 5), unsafe: the spec gives none of these values; every one is zero
here, and `State.resetWith` takes any others. -/
def resetDraws : ResetDraws where
  tick := 0#32
  seg := Vector.replicate 41 0#32
  sstart := 0#32
  dacc := 0#32
  dlast := 0#32

/-- FREE VALUE: the external level E at tick instant `instant` of reset period `epoch`, where the agenda gives none
(10 R38, 92 D28, 93 I14: "any value at every instant"; log 6). -/
opaque envLevel (epoch instant : Nat) : Level

/-- FREE VALUE: the level of the line under contention at tick instant `instant` of reset period `epoch`
(41 R120, R129, 93 I11: "any value, a fresh draw at every instant"; log 7). -/
opaque contentionLevel (epoch instant : Nat) : Level

/-- FREE VALUE: the data of the `n`-th read that ends in BUSERR (20 R52, 93 I12: "any value for the data"; log 4). -/
opaque busErrData (n : Nat) : BitVec 64

end Sys2Proof.Config
end

