-- ==== Sys2Proof/Syntax.lean ====
section
/-! DEFINITION. The instructions of the block: one admitted host access each (spec/30_encoding.md R70), one constructor
per mnemonic of spec/opcode_table.json ("Rows with the same mnemonic are one instruction", R78), and the bus accesses a
host can make, the malformed ones among them (spec/20_memory.md R51, R52). -/

namespace Sys2Proof

/-- The instructions, in the opcode table's order. -/
inductive Instr where
  /-- NOP (44 R200). -/
  | nop
  /-- LINE.IN (41 R121). -/
  | lineIn
  /-- LINE.OUT p (41 R122). -/
  | lineOut (p : Level)
  /-- LINE.SET p (41 R123). -/
  | lineSet (p : Level)
  /-- DELAY (40 R103). -/
  | delay
  /-- SAMPLE (42 R140). -/
  | sample
  /-- DECODE.A (43 R180). -/
  | decodeA
  /-- DECODE.B (43 R181). -/
  | decodeB
  /-- CLRERR (44 R201). -/
  | clrerr
  /-- RD.CMD (44 R211). -/
  | rdCmd
  /-- RD.STATUS (44 R205). -/
  | rdStatus
  /-- RD.TICKS (40 R101). -/
  | rdTicks
  /-- RD.ARG (44 R206). -/
  | rdArg
  /-- WR.ARG v (44 R202). -/
  | wrArg (v : Word)
  /-- RD.BRK (44 R206). -/
  | rdBrk
  /-- WR.BRK v (44 R203). -/
  | wrBrk (v : Word)
  /-- RD.BIT (44 R206). -/
  | rdBit
  /-- WR.BIT v (44 R204). -/
  | wrBit (v : Word)
  /-- RD.LINE (41 R124). -/
  | rdLine
  /-- RD.RAW (44 R207). -/
  | rdRaw
  /-- RD.CKS (44 R207). -/
  | rdCks
  /-- RD.HUM (44 R208). -/
  | rdHum
  /-- RD.TEMP (44 R208). -/
  | rdTemp
  /-- RD.SEGCAP (44 R209). -/
  | rdSegcap
  /-- RD.SEG k, 0 ≤ k ≤ 40 (44 R210). -/
  | rdSeg (k : Fin 41)
  /-- RD.RSVD: a read of the reserved offset `off` (44 R213). -/
  | rdRsvd (off : Byte)
  /-- WR.IGN: a write of `v` to the read-only or reserved offset `off` (44 R212). -/
  | wrIgn (off : Byte) (v : Word)
  deriving DecidableEq, Repr

/-- The width of a bus access. The block admits 32 bits only (20 R51); R52 names the others. -/
inductive AccessSize where
  | b8
  | b16
  | b32
  | b64
  deriving DecidableEq, Repr

/-- One access of the host to the window: its width, its byte offset from BASE (20 R50: an access outside the window is
not an access to the block) and, for a write, its data. The data of a write that is not 32 bits wide is never looked
at (R52), so 32 bits of it are kept. -/
inductive Access where
  | read (size : AccessSize) (off : Byte)
  | write (size : AccessSize) (off : Byte) (v : Word)
  deriving DecidableEq, Repr

/-- The width of an access. -/
def Access.size : Access → AccessSize
  | .read sz _ => sz
  | .write sz _ _ => sz

/-- The byte offset of an access. -/
def Access.off : Access → Byte
  | .read _ off => off
  | .write _ off _ => off

end Sys2Proof
end

