-- ==== Sys2Proof/WellFormed.lean ====
section
/-! DEFINITION. Which terms of `Instr` are instructions of the block: RD.RSVD and WR.IGN carry an offset, and only the
offsets of spec/44_control.md R212 and R213 (spec/30_encoding.md R78) are theirs. Every other constructor's operands
are all legal. -/

namespace Sys2Proof

/-- An offset that 32-bit accesses admit: a multiple of 4 (20 R51). -/
def alignedOffset (off : Byte) : Bool :=
  off &&& 3#8 == 0#8

/-- The reserved offsets: 0x30–0x3C and 0xE4–0xFC (10 R35, 44 R213). -/
def reservedOffset (off : Byte) : Bool :=
  alignedOffset off &&
    ((0x30 ≤ off.toNat && off.toNat ≤ 0x3C) || (0xE4 ≤ off.toNat && off.toNat ≤ 0xFC))

/-- The offsets a write to which is ignored: STATUS, TICKS, LINE, RAW to SEGCAP, and all of 0x30–0xFC (44 R212). -/
def ignoredOffset (off : Byte) : Bool :=
  alignedOffset off &&
    (off.toNat == 0x04 || off.toNat == 0x08 || (0x18 ≤ off.toNat && off.toNat ≤ 0xFC))

/-- The check: each instruction's operands are ones the spec gives it. -/
def Instr.wellFormed : Instr → Bool
  | .rdRsvd off => reservedOffset off
  | .wrIgn off _ => ignoredOffset off
  | .nop | .lineIn | .lineOut _ | .lineSet _ | .delay | .sample | .decodeA | .decodeB | .clrerr => true
  | .rdCmd | .rdStatus | .rdTicks | .rdArg | .wrArg _ | .rdBrk | .wrBrk _ | .rdBit | .wrBit _ => true
  | .rdLine | .rdRaw | .rdCks | .rdHum | .rdTemp | .rdSegcap | .rdSeg _ => true

end Sys2Proof
end

