-- ==== Sys2Proof/Decode.lean ====
section
/-! DEFINITION. From a host access to an instruction, total and rejecting by name (spec/30_encoding.md R70 to R79,
spec/20_memory.md R51, R52); then the encoder, written from the same tables, and the assembly text of R80. -/

namespace Sys2Proof

/-- Why an access is no instruction. -/
inductive Reject where
  /-- Not a 32-bit access (20 R52): BUSERR. -/
  | misSized
  /-- Not at a multiple of 4 (20 R52): BUSERR. -/
  | misaligned
  /-- No row of R78 selects the descriptor. The rows cover every aligned descriptor but A = 0x100, which is format C,
  so no access is rejected so (`decodeRegister_covers`, Laws/Decode.lean). -/
  | noRegister
  /-- OP in 0x8..0xF (30 R74): an illegal command word. -/
  | reservedOpcode
  /-- Z1 ≠ 0 or Z2 ≠ 0 (30 R75): an illegal command word. -/
  | reservedBits
  /-- P = 1 with OP in 0x0, 0x1, 0x4, 0x5, 0x7 (30 R76): an illegal command word. -/
  | strayOperand
  deriving DecidableEq, Repr

/-- Is the access malformed (20 R52), as opposed to an illegal command word? -/
def Reject.isBusError : Reject → Bool
  | .misSized | .misaligned | .noRegister => true
  | .reservedOpcode | .reservedBits | .strayOperand => false

/-- The level a command word's bit 8 stands for (30 R73). -/
def levelOfBit (b : Bool) : Level :=
  if b then .high else .low

/-- The bit that stands for a level (30 R73). -/
def bitOfLevel : Level → Bool
  | .low => false
  | .high => true

/-! ### Format C: the command word (30 R71) -/

/-- Field OP, bits 3:0. -/
def cmdOp (w : Word) : BitVec 4 := w.extractLsb' 0 4

/-- Field Z1, bits 7:4. -/
def cmdZ1 (w : Word) : BitVec 4 := w.extractLsb' 4 4

/-- Field P, bit 8. -/
def cmdP (w : Word) : Bool := w.getLsbD 8

/-- Field Z2, bits 31:9. -/
def cmdZ2 (w : Word) : BitVec 23 := w.extractLsb' 9 23

/-- A command word to its command or the reason it is illegal (30 R72 to R76). -/
def decodeCommand (w : Word) : Except Reject Instr :=
  if 8 ≤ (cmdOp w).toNat then .error .reservedOpcode
  else if cmdZ1 w ≠ 0#4 ∨ cmdZ2 w ≠ 0#23 then .error .reservedBits
  else
    match (cmdOp w).toNat, cmdP w with
    | 0, false => .ok .nop
    | 1, false => .ok .lineIn
    | 2, p => .ok (.lineOut (levelOfBit p))
    | 3, p => .ok (.lineSet (levelOfBit p))
    | 4, false => .ok .delay
    | 5, false => .ok .sample
    | 6, false => .ok .decodeA
    | 6, true => .ok .decodeB
    | 7, false => .ok .clrerr
    | _, _ => .error .strayOperand

/-! ### Format M: the access descriptor A = {W, off} (30 R77, R78) -/

/-- The mnemonics of format M. -/
inductive RegForm where
  | rdCmd | rdStatus | rdTicks | rdArg | wrArg | rdBrk | wrBrk | rdBit | wrBit | rdLine | rdRaw | rdCks
  | rdHum | rdTemp | rdSegcap | rdSeg | rdRsvd | wrIgn
  deriving DecidableEq, Repr

/-- A row of the format M table: it selects the descriptors A with A AND mask = pattern. -/
structure RegRow where
  pattern : BitVec 9
  mask : BitVec 9
  form : RegForm
  deriving DecidableEq, Repr

/-- The fifteen rows of one register each (30 R78). -/
def registerRows : List RegRow :=
  [⟨0x000, 0x1FF, .rdCmd⟩, ⟨0x004, 0x1FF, .rdStatus⟩, ⟨0x008, 0x1FF, .rdTicks⟩, ⟨0x00C, 0x1FF, .rdArg⟩,
   ⟨0x10C, 0x1FF, .wrArg⟩, ⟨0x010, 0x1FF, .rdBrk⟩, ⟨0x110, 0x1FF, .wrBrk⟩, ⟨0x014, 0x1FF, .rdBit⟩,
   ⟨0x114, 0x1FF, .wrBit⟩, ⟨0x018, 0x1FF, .rdLine⟩, ⟨0x01C, 0x1FF, .rdRaw⟩, ⟨0x020, 0x1FF, .rdCks⟩,
   ⟨0x024, 0x1FF, .rdHum⟩, ⟨0x028, 0x1FF, .rdTemp⟩, ⟨0x02C, 0x1FF, .rdSegcap⟩]

/-- RD.SEG in four rows and RD.RSVD in five (30 R78). -/
def logRows : List RegRow :=
  [⟨0x040, 0x1C3, .rdSeg⟩, ⟨0x080, 0x1C3, .rdSeg⟩, ⟨0x0C0, 0x1E3, .rdSeg⟩, ⟨0x0E0, 0x1FF, .rdSeg⟩,
   ⟨0x030, 0x1F3, .rdRsvd⟩, ⟨0x0E4, 0x1FF, .rdRsvd⟩, ⟨0x0E8, 0x1FF, .rdRsvd⟩, ⟨0x0EC, 0x1FF, .rdRsvd⟩,
   ⟨0x0F0, 0x1F3, .rdRsvd⟩]

/-- WR.IGN in eleven rows (30 R78). -/
def ignoredRows : List RegRow :=
  [⟨0x104, 0x1FF, .wrIgn⟩, ⟨0x108, 0x1FF, .wrIgn⟩, ⟨0x118, 0x1FF, .wrIgn⟩, ⟨0x11C, 0x1FF, .wrIgn⟩,
   ⟨0x120, 0x1FF, .wrIgn⟩, ⟨0x124, 0x1FF, .wrIgn⟩, ⟨0x128, 0x1FF, .wrIgn⟩, ⟨0x12C, 0x1FF, .wrIgn⟩,
   ⟨0x130, 0x1F3, .wrIgn⟩, ⟨0x140, 0x1C3, .wrIgn⟩, ⟨0x180, 0x183, .wrIgn⟩]

/-- The 35 rows of format M. -/
def regRows : List RegRow := registerRows ++ logRows ++ ignoredRows

/-- Does the row select the descriptor? -/
def RegRow.selects (r : RegRow) (a : BitVec 9) : Bool :=
  a &&& r.mask == r.pattern

/-- The mnemonic of a descriptor: the row that selects it. -/
def regForm (a : BitVec 9) : Option RegForm :=
  (regRows.find? (fun r => r.selects a)).map RegRow.form

/-- The byte offset in a descriptor, A[7:0] (30 R77). -/
def descriptorOffset (a : BitVec 9) : Byte := a.extractLsb' 0 8

/-- The descriptor of an access, {W, off} (30 R77). -/
def descriptor (isWrite : Bool) (off : Byte) : BitVec 9 := BitVec.ofBool isWrite ++ off

/-- The entry number of RD.SEG, k = (off - 0x40) / 4 (30 R78). -/
def segIndex (off : Byte) : Fin 41 := Fin.ofNat 41 ((off.toNat - 0x40) / 4)

/-- A mnemonic of format M with its operands: the offset, and the data word of a write. -/
def RegForm.instr (f : RegForm) (off : Byte) (v : Word) : Instr :=
  match f with
  | .rdCmd => .rdCmd
  | .rdStatus => .rdStatus
  | .rdTicks => .rdTicks
  | .rdArg => .rdArg
  | .wrArg => .wrArg v
  | .rdBrk => .rdBrk
  | .wrBrk => .wrBrk v
  | .rdBit => .rdBit
  | .wrBit => .wrBit v
  | .rdLine => .rdLine
  | .rdRaw => .rdRaw
  | .rdCks => .rdCks
  | .rdHum => .rdHum
  | .rdTemp => .rdTemp
  | .rdSegcap => .rdSegcap
  | .rdSeg => .rdSeg (segIndex off)
  | .rdRsvd => .rdRsvd off
  | .wrIgn => .wrIgn off v

/-- A format M access: its descriptor, and its data word (zero for a read). -/
def decodeRegister (a : BitVec 9) (v : Word) : Except Reject Instr :=
  match regForm a with
  | some f => .ok (f.instr (descriptorOffset a) v)
  | none => .error .noRegister

/-- Is the access one the block admits: 32 bits, at a multiple of 4 (20 R51)? -/
def Access.admitted (a : Access) : Bool :=
  a.size == .b32 && alignedOffset a.off

/-- The check of an access's shape, before anything else is looked at (60 R225): 32 bits wide, at a multiple of 4
(20 R52). -/
def checkShape (sz : AccessSize) (off : Byte) (r : Except Reject Instr) : Except Reject Instr :=
  if sz ≠ .b32 then .error .misSized
  else if alignedOffset off = false then .error .misaligned
  else r

/-- A host access to its instruction: a write at offset 0x00 is format C, every other admitted access format M
(30 R70). -/
def decode : Access → Except Reject Instr
  | .read sz off => checkShape sz off (decodeRegister (descriptor false off) 0#32)
  | .write sz off v =>
    checkShape sz off (if off = 0#8 then decodeCommand v else decodeRegister (descriptor true off) v)

/-- The access that a word of the opcode table stands for, `nbits` bits long: a format C row gives 32 bits, the data word
of a write to CMD (30 R71); a format M row gives the 9-bit descriptor A (30 R77), and the data word of a write, to which
the table gives no bits, is 0 (log 2). -/
def tableAccess (nbits w : Nat) : Access :=
  if 32 ≤ nbits then .write .b32 0#8 (BitVec.ofNat 32 w)
  else if 256 ≤ w then .write .b32 (BitVec.ofNat 8 w) 0#32
  else .read .b32 (BitVec.ofNat 8 w)

/-- The instruction that the decoder reads from a word of the opcode table; none where it refuses, or where the word has
bits that its format does not have (log 2). -/
def decodeTableWord (nbits w : Nat) : Option Instr :=
  if (32 ≤ nbits ∧ w < 2 ^ 32) ∨ (nbits < 32 ∧ w < 2 ^ 9) then
    match decode (tableAccess nbits w) with
    | .ok i => some i
    | .error _ => none
  else none

/-! ### The encoder -/

/-- A command word from its fields (30 R71): Z2 = 0, P, Z1 = 0, OP. -/
def commandWord (op : BitVec 4) (p : Bool) : Word :=
  0#23 ++ BitVec.ofBool p ++ 0#4 ++ op

/-- A command: the 32-bit write to CMD that issues it. -/
def commandAccess (op : BitVec 4) (p : Bool) : Access :=
  .write .b32 0#8 (commandWord op p)

/-- The byte offset of SEG[k], 0x40 + 4k (10 R34). -/
def segOffset (k : Fin 41) : Byte := BitVec.ofNat 8 (0x40 + 4 * k.val)

/-- The access that an instruction is (30 R72, R78). -/
def encode : Instr → Access
  | .nop => commandAccess 0x0#4 false
  | .lineIn => commandAccess 0x1#4 false
  | .lineOut p => commandAccess 0x2#4 (bitOfLevel p)
  | .lineSet p => commandAccess 0x3#4 (bitOfLevel p)
  | .delay => commandAccess 0x4#4 false
  | .sample => commandAccess 0x5#4 false
  | .decodeA => commandAccess 0x6#4 false
  | .decodeB => commandAccess 0x6#4 true
  | .clrerr => commandAccess 0x7#4 false
  | .rdCmd => .read .b32 0x00#8
  | .rdStatus => .read .b32 0x04#8
  | .rdTicks => .read .b32 0x08#8
  | .rdArg => .read .b32 0x0C#8
  | .wrArg v => .write .b32 0x0C#8 v
  | .rdBrk => .read .b32 0x10#8
  | .wrBrk v => .write .b32 0x10#8 v
  | .rdBit => .read .b32 0x14#8
  | .wrBit v => .write .b32 0x14#8 v
  | .rdLine => .read .b32 0x18#8
  | .rdRaw => .read .b32 0x1C#8
  | .rdCks => .read .b32 0x20#8
  | .rdHum => .read .b32 0x24#8
  | .rdTemp => .read .b32 0x28#8
  | .rdSegcap => .read .b32 0x2C#8
  | .rdSeg k => .read .b32 (segOffset k)
  | .rdRsvd off => .read .b32 off
  | .wrIgn off v => .write .b32 off v

/-! ### The window on the host's bus, and the assembly text -/

/-- The host bus address of a register (20 R50). -/
def busAddress (off : Byte) : Nat := Config.base + off.toNat

/-- The host bus address of byte lane `k` of a register: bits 7:0 lie lowest (20 R53). -/
def laneAddress (off : Byte) (k : Fin 4) : Nat := busAddress off + k.val

/-- Byte lane `k` of a register's value, little-endian (20 R53). -/
def laneByte (v : Word) (k : Fin 4) : Byte := v.extractLsb' (8 * k.val) 8

/-- The name of the register at an offset (10 R20); a reserved offset has no name, and its number stands for it
(log 17). -/
def registerName (off : Byte) : String :=
  match off.toNat with
  | 0x00 => "CMD"
  | 0x04 => "STATUS"
  | 0x08 => "TICKS"
  | 0x0C => "ARG"
  | 0x10 => "BREAK_THR"
  | 0x14 => "BIT_THR"
  | 0x18 => "LINE"
  | 0x1C => "RAW"
  | 0x20 => "CKS"
  | 0x24 => "HUM"
  | 0x28 => "TEMP"
  | 0x2C => "SEGCAP"
  | n => if 0x40 ≤ n ∧ n ≤ 0xE0 then "SEG[" ++ toString ((n - 0x40) / 4) ++ "]" else toString n

/-- A line of assembly text for a register access. -/
def asmAccess : Access → String
  | .read _ off => "RD " ++ registerName off
  | .write _ off v => "WR " ++ registerName off ++ ", " ++ toString v.toNat

/-- The assembly text of an instruction (30 R80), numbers in decimal. -/
def asm (i : Instr) : String :=
  match i with
  | .nop => "NOP"
  | .lineIn => "LINE.IN"
  | .lineOut .low => "LINE.OUT 0"
  | .lineOut .high => "LINE.OUT 1"
  | .lineSet .low => "LINE.SET 0"
  | .lineSet .high => "LINE.SET 1"
  | .delay => "DELAY"
  | .sample => "SAMPLE"
  | .decodeA => "DECODE.A"
  | .decodeB => "DECODE.B"
  | .clrerr => "CLRERR"
  | .rdCmd | .rdStatus | .rdTicks | .rdArg | .wrArg _ | .rdBrk | .wrBrk _ | .rdBit | .wrBit _ | .rdLine | .rdRaw
  | .rdCks | .rdHum | .rdTemp | .rdSegcap | .rdSeg _ | .rdRsvd _ | .wrIgn _ _ => asmAccess (encode i)

end Sys2Proof
end

