-- ==== Sys2Proof/Machine/State.lean ====
section
/-! DEFINITION. The state of the block as plain data (spec/10_state.md R20 to R38), with the inputs it is given, and
the state after reset (spec/70_reset_and_hazards.md R260, R261). -/

namespace Sys2Proof.Machine

/-- The sequencer state ACT (10 R22). -/
inductive Act where
  | idle
  | delay
  | waitFall
  | low
  | high
  deriving DecidableEq, Repr

/-- STATUS.END, why the last SAMPLE stopped (10 R21): 0 = BREAK, 1 = FULL. -/
inductive EndReason where
  | brk
  | full
  deriving DecidableEq, Repr

/-- STATUS.OUTCOME (10 R21). Codes 5 to 15 are never produced, so they have no constructor. -/
inductive DecodeOutcome where
  | none
  | success
  | noResponse
  | corruptCount
  | corruptCksum
  deriving DecidableEq, Repr

/-- LINE.DIR (10 R28): 0 = input (released), 1 = output (driven). -/
inductive Direction where
  | input
  | output
  deriving DecidableEq, Repr

/-- What the block hands back for the host's last access (20 R51, R52; log 3). -/
inductive Response where
  /-- No access has completed since reset. -/
  | none
  /-- A read completed with this value. -/
  | data (v : Word)
  /-- A write completed (stored, performed, dropped or ignored: the bus does not tell them apart). -/
  | done
  /-- A read ended in BUSERR; its data is unspecified (60 R223). -/
  | readError (v : BitVec 64)
  /-- A write ended in BUSERR (60 R223). -/
  | writeError
  deriving DecidableEq, Repr

/-- What happens to the block next (00 R9, 20 R58, 70 R260; log 1, log 8). -/
inductive Event where
  /-- The next tick instant begins, with external level `e` (20 R57, 41 R120). -/
  | tick (e : Level)
  /-- The host performs an access in the current instant (20 R58). -/
  | access (a : Access)
  /-- The platform asserts reset (70 R260). -/
  | resetAssert
  /-- The platform releases reset; `d` is what the reset leaves open, `e` the external level at instant 0. -/
  | resetRelease (d : Config.ResetDraws) (e : Level)
  deriving DecidableEq, Repr

/-- The block. -/
structure State where
  /-- CNT, the tick counter (10 R27, 40 R100). -/
  cnt : Word
  /-- n, the tick instant, counted from the first one after reset (20 R57). -/
  instant : Nat
  /-- STATUS.ACT (10 R22); BUSY is derived from it. -/
  act : Act
  /-- STATUS.END (10 R21). -/
  endReason : EndReason
  /-- STATUS.OVR, sticky (60 R221). -/
  ovr : Bool
  /-- STATUS.ILL, sticky (60 R222). -/
  ill : Bool
  /-- STATUS.OUTCOME (10 R21). -/
  outcome : DecodeOutcome
  /-- STATUS.SEGCOUNT (10 R21). -/
  segcount : BitVec 6
  /-- ARG (10 R24). -/
  arg : Word
  /-- BREAK_THR (10 R25). -/
  breakThr : Word
  /-- BIT_THR (10 R26). -/
  bitThr : Word
  /-- LINE.DIR (10 R28). -/
  dir : Direction
  /-- LINE.OUT, the output latch (10 R28). -/
  out : Level
  /-- RAW (10 R29). -/
  raw : Word
  /-- CKS.RECV (10 R30). -/
  cksRecv : Byte
  /-- CKS.CALC (10 R30). -/
  cksCalc : Byte
  /-- HUM[15:0] (10 R31). -/
  hum : BitVec 16
  /-- TEMP[15:0] (10 R32). -/
  temp : BitVec 16
  /-- SEG[0..40], the segment log (10 R34, 20 R64). -/
  seg : Vector Word 41
  /-- SSTART, hidden (10 R36). -/
  sstart : Word
  /-- DACC, hidden (10 R37). -/
  dacc : Word
  /-- DLAST, hidden (10 R37). -/
  dlast : Word
  /-- The reset input (70 R260). -/
  resetAsserted : Bool
  /-- E, the external line level of the current instant: an input (10 R38, 41 R120). -/
  env : Level
  /-- What the block handed back for the host's last access (the model's own; log 3). -/
  bus : Response
  /-- How many times reset has been released: index of the free values (the model's own; log 7). -/
  epoch : Nat
  /-- How many reads ended in BUSERR: index of the free value of their data (the model's own; log 4). -/
  errReads : Nat
  /-- What happens next, oldest first: the inputs of the block (10 R38; log 1). -/
  agenda : List Event
  deriving DecidableEq, Repr

/-- Why a step can fault. -/
inductive Fault where
  /-- Raised by a sampler push (42 R145) with SEGCOUNT ≥ 41. Safe: "no push writes beyond SEG[40]" (R145), so only states
  that no run reaches raise it, and the model stops where the spec says nothing (log 9). -/
  | segLogOverflow
  deriving DecidableEq, Repr

/-- Why a step can be refused. -/
inductive Refusal where
  /-- Raised by `exec` for an instruction that has no meaning yet. Safe: nothing is claimed of it. -/
  | notModelled (mnemonic : String)
  /-- Raised by `step` for a host access while reset is asserted: "host accesses have no defined effect" (70 R260),
  and the spec's treatment is to refuse it (93 I13). Safe: nothing is claimed of it (log 8). -/
  | accessDuringReset
  deriving DecidableEq, Repr

/-- The registers right after a reset that draws `d`, at instant 0 with external level `e` (70 R261). The model's own
index fields and the agenda are the caller's. -/
def State.afterReset (d : Config.ResetDraws) (e : Level) (epoch errReads : Nat) (agenda : List Event) : State where
  cnt := d.tick
  instant := 0
  act := .idle
  endReason := .brk
  ovr := false
  ill := false
  outcome := .none
  segcount := 0#6
  arg := 0#32
  breakThr := Config.breakThrReset
  bitThr := Config.bitThrReset
  dir := .input
  out := .low
  raw := 0#32
  cksRecv := 0#8
  cksCalc := 0#8
  hum := 0#16
  temp := 0#16
  seg := d.seg
  sstart := d.sstart
  dacc := d.dacc
  dlast := d.dlast
  resetAsserted := false
  env := e
  bus := .none
  epoch := epoch
  errReads := errReads
  agenda := agenda

/-- The machine right after its first reset, for any draws of what the spec leaves open (70 R261). -/
def State.resetWith (d : Config.ResetDraws) : State :=
  State.afterReset d (Config.envLevel 0 0) 0 0 []

/-- The machine right after reset (70 R261). The spec gives no value for CNT (TICK_RESET), SEG, SSTART, DACC and DLAST:
DESIGN CHOICE (log 5), they are those of `Config.resetDraws`. -/
def State.reset : State :=
  State.resetWith Config.resetDraws

end Sys2Proof.Machine
end

