-- ==== Sys2Proof/Machine/Operands.lean ====
section
/-! DEFINITION. Arithmetic on operands (spec/00_scope.md §5, spec/40_tick_source.md R102, R105), the level of the data
line (spec/41_line_access.md R120), and the value that each register of the window reads as (spec/10_state.md R20 to
R35). -/

namespace Sys2Proof.Machine

/-- `later -w earlier`, the wrapping difference of two counter values (40 R102). -/
def wrapDiff (later earlier : Word) : Word := later - earlier

/-- `a +sat b` = min(a + b, 2^32 - 1) (40 R105). -/
def satAdd (a b : Word) : Word :=
  BitVec.ofNat 32 (min (a.toNat + b.toNat) (2 ^ 32 - 1))

/-- STATUS.BUSY: ACT is not IDLE (10 R22). -/
def State.busy (s : State) : Bool := s.act != .idle

/-- The code of ACT (10 R22). -/
def Act.code : Act → BitVec 3
  | .idle => 0#3
  | .delay => 1#3
  | .waitFall => 2#3
  | .low => 3#3
  | .high => 4#3

/-- Is a SAMPLE running (10 R22)? -/
def Act.sampling : Act → Bool
  | .waitFall | .low | .high => true
  | .idle | .delay => false

/-- The code of END (10 R21). -/
def EndReason.code : EndReason → BitVec 1
  | .brk => 0#1
  | .full => 1#1

/-- The code of OUTCOME (10 R21). -/
def DecodeOutcome.code : DecodeOutcome → BitVec 4
  | .none => 0#4
  | .success => 1#4
  | .noResponse => 2#4
  | .corruptCount => 3#4
  | .corruptCksum => 4#4

/-- The code of LINE.DIR (10 R28). -/
def Direction.code : Direction → BitVec 1
  | .input => 0#1
  | .output => 1#1

/-- A level as a bit (30 R73). -/
def levelCode : Level → BitVec 1
  | .low => 0#1
  | .high => 1#1

/-- PIN, the data-line level of the current instant (41 R120). Under contention it is a free value, one per tick instant
(41 R129; log 7). -/
def State.pin (s : State) : Level :=
  match s.dir, s.out, s.env with
  | .input, _, e => e
  | .output, .low, _ => .low
  | .output, .high, .high => .high
  | .output, .high, .low => Config.contentionLevel s.epoch s.instant

/-- STATUS as it reads (10 R21, 44 R205). -/
def State.statusWord (s : State) : Word :=
  0#10 ++ s.segcount ++ 0#4 ++ s.outcome.code ++ 0#1 ++ BitVec.ofBool s.ill ++ BitVec.ofBool s.ovr ++
    s.endReason.code ++ s.act.code ++ BitVec.ofBool s.busy

/-- LINE as it reads: {OUT, DIR, PIN} zero-extended (41 R124). -/
def State.lineWord (s : State) : Word :=
  (levelCode s.out ++ s.dir.code ++ levelCode s.pin).setWidth 32

/-- CKS as it reads: {16'b0, CALC, RECV} (10 R30). -/
def State.cksWord (s : State) : Word :=
  0#16 ++ s.cksCalc ++ s.cksRecv

/-- HUM as it reads: bits 31:16 are 0 (10 R31). -/
def State.humWord (s : State) : Word := s.hum.setWidth 32

/-- TEMP as it reads: bits 31:16 are copies of bit 15 (10 R32). -/
def State.tempWord (s : State) : Word := s.temp.signExtend 32

/-- SEGCAP always reads 41 (10 R33). -/
def segcapWord : Word := BitVec.ofNat 32 Config.segCap

/-- A read of CMD returns 0 (10 R23, 44 R211). -/
def cmdWord : Word := 0#32

/-- A read of a reserved offset returns 0 (10 R35, 44 R213). -/
def reservedWord : Word := 0#32

end Sys2Proof.Machine
end

