-- ==== Sys2Proof/Machine/Flags.lean ====
section
/-! DEFINITION. The status flags (spec/10_state.md §9): what raises, clears and writes OVR, ILL, END and OUTCOME. -/

namespace Sys2Proof.Machine

/-- `raise OVR` (60 R221). -/
def State.raiseOvr (s : State) : State := { s with ovr := true }

/-- `raise ILL` (60 R222). -/
def State.raiseIll (s : State) : State := { s with ill := true }

/-- OVR and ILL cleared, as CLRERR does (44 R201). -/
def State.clearErrors (s : State) : State := { s with ovr := false, ill := false }

/-- SAMPLE termination: END says why, and ACT becomes IDLE (42 R146, R147). -/
def State.stopSample (s : State) (r : EndReason) : State := { s with endReason := r, act := .idle }

/-- OUTCOME written by a DECODE or by SAMPLE's acceptance (43 R170, 42 R140). -/
def State.setOutcome (s : State) (o : DecodeOutcome) : State := { s with outcome := o }

end Sys2Proof.Machine
end

