-- ==== Sys2Proof/Machine/Ops.lean ====
section
/-! DEFINITION. The named operations that the meanings share: handing back a response, a write that the busy rule
guards, the rejected access (BUSERR, OVR, ILL: the block's "exceptions", spec/60_exceptions.md R220 to R225, none of
which traps), the push onto the segment log, and the passing of time. -/

namespace Sys2Proof.Machine

/-- The answer of an operation on the state. -/
abbrev Result := Host.Outcome State Fault Refusal

/-- The block hands back `r` for the host's access (20 R51). -/
def State.respond (s : State) (r : Response) : State := { s with bus := r }

/-- A read: it returns `v` and changes nothing of the block (20 R54). -/
def readReg (v : Word) (s : State) : Result :=
  .next (s.respond (.data v))

/-- A write to CMD, ARG, BREAK_THR or BIT_THR: dropped while BUSY = 1, which sets OVR (60 R221); otherwise performed. -/
def guardedWrite (effect : State → State) (s : State) : Result :=
  if s.busy then .next (s.raiseOvr.respond .done) else .next ((effect s).respond .done)

/-- A write to a read-only or reserved offset: ignored, busy or not, with no flag (44 R212). -/
def ignoredWrite (s : State) : Result :=
  .next (s.respond .done)

/-- BUSERR: the access ends in an error response; no register, flag or sequencer state changes, and the data of a read
is a free value (60 R223; log 4). -/
def busError (a : Access) (s : State) : Result :=
  match a with
  | .read _ _ => .next { s.respond (.readError (Config.busErrData s.errReads)) with errReads := s.errReads + 1 }
  | .write _ _ _ => .next (s.respond .writeError)

/-- An illegal command word: OVR while busy, since busy is checked first (60 R225), otherwise ILL (60 R222). -/
def illegalCommand (s : State) : Result :=
  guardedWrite State.raiseIll s

/-- An access that is no instruction (60 R225). -/
def rejectAccess (r : Reject) (a : Access) (s : State) : Result :=
  if r.isBusError then busError a s else illegalCommand s

/-- `push(d)`: SEG[SEGCOUNT] takes d, and SEGCOUNT goes up by one (42 R145). A push beyond SEG[40], which no reachable
state makes, is a fault (log 9). -/
def push (d : Word) (s : State) : Result :=
  if s.segcount.toNat < Config.segCap then
    .next { s with seg := s.seg.setIfInBounds s.segcount.toNat d, segcount := s.segcount + 1#6 }
  else .fault .segLogOverflow

/-- `CNT -w SSTART`, the elapsed time of the current segment or wait (10 R36). -/
def State.elapsed (s : State) : Word := wrapDiff s.cnt s.sstart

/-- The next tick instant begins: the counter advances by one modulo 2^32 (40 R100) and the environment presents `e`,
constant within the instant (41 R120). -/
def State.advance (s : State) (e : Level) : State :=
  { s with cnt := s.cnt + 1#32, instant := s.instant + 1, env := e }

/-- The external level of the next instant where the agenda gives none: a free value (92 D28; log 6). -/
def State.nextEnv (s : State) : Level := Config.envLevel s.epoch (s.instant + 1)

/-- Reset is asserted (70 R260): nothing takes its reset value before it is released. -/
def State.assertReset (s : State) : State := { s with resetAsserted := true }

/-- Reset is released (70 R260, R261): every register takes its reset value, and a DELAY or SAMPLE in progress is
abandoned. A release with reset not asserted is no event of the input, and nothing changes (log 8). -/
def State.releaseReset (s : State) (d : Config.ResetDraws) (e : Level) : State :=
  if s.resetAsserted then State.afterReset d e (s.epoch + 1) s.errReads s.agenda else s

end Sys2Proof.Machine
end

