-- ==== Sys2Proof/Machine/Control.lean ====
section
/-! DEFINITION. Control and register access (spec/44_control.md): NOP, CLRERR, the configuration writes, the reads, and
the ignored accesses. -/

namespace Sys2Proof.Machine

/-- NOP: no effect; like every command it is dropped while busy (44 R200). -/
def execNop (s : State) : Result := guardedWrite id s

/-- CLRERR: OVR and ILL become 0 (44 R201). -/
def execClrerr (s : State) : Result := guardedWrite State.clearErrors s

/-- x[ARG] <- v (44 R202). -/
def State.setArg (v : Word) (s : State) : State := { s with arg := v }

/-- x[BREAK_THR] <- v (44 R203). -/
def State.setBreakThr (v : Word) (s : State) : State := { s with breakThr := v }

/-- x[BIT_THR] <- v (44 R204). -/
def State.setBitThr (v : Word) (s : State) : State := { s with bitThr := v }

/-- WR.ARG v (44 R202). -/
def execWrArg (v : Word) (s : State) : Result := guardedWrite (State.setArg v) s

/-- WR.BRK v (44 R203). -/
def execWrBrk (v : Word) (s : State) : Result := guardedWrite (State.setBreakThr v) s

/-- WR.BIT v (44 R204). -/
def execWrBit (v : Word) (s : State) : Result := guardedWrite (State.setBitThr v) s

/-- RD.STATUS (44 R205). -/
def execRdStatus (s : State) : Result := readReg s.statusWord s

/-- RD.ARG (44 R206). -/
def execRdArg (s : State) : Result := readReg s.arg s

/-- RD.BRK (44 R206). -/
def execRdBrk (s : State) : Result := readReg s.breakThr s

/-- RD.BIT (44 R206). -/
def execRdBit (s : State) : Result := readReg s.bitThr s

/-- RD.RAW (44 R207). -/
def execRdRaw (s : State) : Result := readReg s.raw s

/-- RD.CKS (44 R207). -/
def execRdCks (s : State) : Result := readReg s.cksWord s

/-- RD.HUM (44 R208). -/
def execRdHum (s : State) : Result := readReg s.humWord s

/-- RD.TEMP (44 R208). -/
def execRdTemp (s : State) : Result := readReg s.tempWord s

/-- RD.SEGCAP (44 R209). -/
def execRdSegcap (s : State) : Result := readReg segcapWord s

/-- RD.SEG k (44 R210). -/
def execRdSeg (k : Fin 41) (s : State) : Result := readReg s.seg[k] s

/-- RD.CMD: returns 0, not the last command word (44 R211). -/
def execRdCmd (s : State) : Result := readReg cmdWord s

/-- RD.RSVD: returns 0, whichever reserved offset it reads (44 R213). -/
def execRdRsvd (_off : Byte) (s : State) : Result := readReg reservedWord s

/-- WR.IGN: no effect, whatever the offset and the data (44 R212). -/
def execWrIgn (_off : Byte) (_v : Word) (s : State) : Result := ignoredWrite s

end Sys2Proof.Machine
end

