-- ==== Sys2Proof/Machine/Decoder.lean ====
section
/-! DEFINITION. DHT bitstream decoder (spec/43_decoder.md): the stages of DecodeCore, and DECODE.A and DECODE.B. -/

namespace Sys2Proof.Machine

/-- The sensor models: Model A (DHT11) and Model B (DHT22) (30 R73). -/
inductive SensorModel where
  | a
  | b
  deriving DecidableEq, Repr

/-- The start offset j: 0 for exactly 40 segments, otherwise 1 (43 R172). -/
def State.startOffset (s : State) : Fin 2 :=
  if s.segcount.toNat = Config.dataBits then 0 else 1

/-- Data segment k, SEG[j + k] (43 R172). -/
def State.dataSegment (s : State) (k : Fin 40) : Word :=
  s.seg[s.startOffset.val + k.val]'(by omega)

/-- bit[k]: 1 exactly when the data segment is longer than BIT_THR (43 R173). -/
def State.dataBit (s : State) (k : Fin 40) : Bool :=
  decide (s.bitThr < s.dataSegment k)

/-- Eight bits packed into a byte, most significant bit first: Σ bit[m] · 2^(7 - m) (43 R174). -/
def packByte (bit : Fin 8 → Bool) : Byte :=
  BitVec.ofNat 8
    ((bit 0).toNat * 2 ^ 7 + (bit 1).toNat * 2 ^ 6 + (bit 2).toNat * 2 ^ 5 + (bit 3).toNat * 2 ^ 4 +
      (bit 4).toNat * 2 ^ 3 + (bit 5).toNat * 2 ^ 2 + (bit 6).toNat * 2 ^ 1 + (bit 7).toNat * 2 ^ 0)

/-- byte[b], from the data bits 8b to 8b + 7 (43 R174). -/
def State.dataByte (s : State) (b : Fin 5) : Byte :=
  packByte fun m => s.dataBit ⟨8 * b.val + m.val, by omega⟩

/-- The checksum computed from bytes 0..3: their sum mod 256 (43 R176). -/
def checksum (b0 b1 b2 b3 : Byte) : Byte :=
  BitVec.ofNat 8 ((b0.toNat + b1.toNat + b2.toNat + b3.toNat) % 256)

/-- Model A humidity, 10 · byte0 + byte1 (43 R177). -/
def humA (b0 b1 : Byte) : Int := 10 * b0.toNat + b1.toNat

/-- Model A temperature, 10 · s8(byte2) + s8(byte3) (43 R177). -/
def tempA (b2 b3 : Byte) : Int := 10 * b2.toInt + b3.toInt

/-- Model B humidity, byte0 · 256 + byte1 (43 R178). -/
def humB (b0 b1 : Byte) : Int := b0.toNat * 256 + b1.toNat

/-- Model B temperature, s8(byte2) · 256 + byte3 (43 R178). -/
def tempB (b2 b3 : Byte) : Int := b2.toInt * 256 + b3.toNat

/-- The humidity of a model (43 R177, R178). -/
def humidity (m : SensorModel) (b0 b1 : Byte) : Int :=
  match m with
  | .a => humA b0 b1
  | .b => humB b0 b1

/-- The temperature of a model (43 R177, R178). -/
def temperature (m : SensorModel) (b2 b3 : Byte) : Int :=
  match m with
  | .a => tempA b2 b3
  | .b => tempB b2 b3

/-- RAW = {byte3, byte2, byte1, byte0} and CKS = {calc, byte4}, written whatever the checksum says (43 R175). -/
def State.writeRaw (s : State) : State :=
  { s with
    raw := s.dataByte 3 ++ s.dataByte 2 ++ s.dataByte 1 ++ s.dataByte 0
    cksRecv := s.dataByte 4
    cksCalc := checksum (s.dataByte 0) (s.dataByte 1) (s.dataByte 2) (s.dataByte 3) }

/-- HUM and TEMP, the low 16 bits of the model's values (43 R179). -/
def State.writeValues (s : State) (m : SensorModel) : State :=
  { s with
    hum := BitVec.ofInt 16 (humidity m (s.dataByte 0) (s.dataByte 1))
    temp := BitVec.ofInt 16 (temperature m (s.dataByte 2) (s.dataByte 3)) }

/-- DecodeCore (43 R170): the count checks (R171), then RAW and CKS (R175), the checksum (R176), and the values
(R179). -/
def State.decodeCore (m : SensorModel) (s : State) : State :=
  if s.segcount.toNat = 0 then s.setOutcome .noResponse
  else if s.segcount.toNat < Config.dataBits then s.setOutcome .corruptCount
  else if s.writeRaw.cksCalc ≠ s.writeRaw.cksRecv then s.writeRaw.setOutcome .corruptCksum
  else (s.writeRaw.writeValues m).setOutcome .success

/-- DECODE.A (43 R180). -/
def execDecodeA (s : State) : Result := guardedWrite (State.decodeCore .a) s

/-- DECODE.B (43 R181). -/
def execDecodeB (s : State) : Result := guardedWrite (State.decodeCore .b) s

end Sys2Proof.Machine
end

