-- ==== Sys2Proof/Machine/LineAccess.lean ====
section
/-! DEFINITION. Line access (spec/41_line_access.md): LINE.IN, LINE.OUT, LINE.SET, RD.LINE. -/

namespace Sys2Proof.Machine

/-- DIR becomes input; the latch keeps its value (41 R121). -/
def State.releaseLine (s : State) : State := { s with dir := .input }

/-- The latch takes `p`, then DIR becomes output, so that the line never drives the old latch value (41 R122). -/
def State.driveLine (p : Level) (s : State) : State := { { s with out := p } with dir := .output }

/-- The latch takes `p`; DIR keeps its value (41 R123). -/
def State.setLatch (p : Level) (s : State) : State := { s with out := p }

/-- LINE.IN (41 R121). -/
def execLineIn (s : State) : Result := guardedWrite State.releaseLine s

/-- LINE.OUT p (41 R122). -/
def execLineOut (p : Level) (s : State) : Result := guardedWrite (State.driveLine p) s

/-- LINE.SET p (41 R123). -/
def execLineSet (p : Level) (s : State) : Result := guardedWrite (State.setLatch p) s

/-- RD.LINE: {OUT, DIR, PIN}, PIN at the instant of the read (41 R124). -/
def execRdLine (s : State) : Result := readReg s.lineWord s

end Sys2Proof.Machine
end

