-- ==== Sys2Proof/Machine/Sampler.lean ====
section
/-! DEFINITION. Pulse-train sampler (spec/42_sampler.md): SAMPLE and the WAITFALL, LOW and HIGH steps. -/

namespace Sys2Proof.Machine

/-- What SAMPLE does when it is accepted (42 R140): the log is empty, and elapsed time counts from the first sample, one
instant later. END, SEG and the result registers keep their values. -/
def State.startSample (s : State) : State :=
  { s with segcount := 0#6, outcome := .none, sstart := s.cnt + 1#32, act := .waitFall }

/-- SAMPLE (42 R140). -/
def execSample (s : State) : Result := guardedWrite State.startSample s

/-- A sample at which the level has not changed: break termination at the threshold, else nothing (42 R146). -/
def State.breakCheck (s : State) : State :=
  if s.breakThr ≤ s.elapsed then s.stopSample .brk else s

/-- The WAITFALL step (42 R142): a low level starts the first segment and records nothing. -/
def State.waitFallStep (s : State) : State :=
  if s.pin = .low then { s with sstart := s.cnt, act := .low } else s.breakCheck

/-- The end of a segment (42 R143, R144): push its duration, start the next one at this tick, and go to `next`, or end
the SAMPLE when the log is full (42 R147). -/
def endSegment (next : Act) (s : State) : Result :=
  match push s.elapsed s with
  | .next t =>
    let t := { t with sstart := s.cnt }
    .next (if t.segcount.toNat = Config.segCap then t.stopSample .full else { t with act := next })
  | .fault f => .fault f
  | .refused r => .refused r

/-- The LOW step (42 R143). -/
def lowStep (s : State) : Result :=
  if s.pin = .high then endSegment .high s else .next s.breakCheck

/-- The HIGH step (42 R144). -/
def highStep (s : State) : Result :=
  if s.pin = .low then endSegment .low s else .next s.breakCheck

end Sys2Proof.Machine
end

