-- ==== Sys2Proof/Machine/TickSource.lean ====
section
/-! DEFINITION. Tick source (spec/40_tick_source.md): RD.TICKS, DELAY and the DELAY step. -/

namespace Sys2Proof.Machine

/-- RD.TICKS (40 R101). -/
def execRdTicks (s : State) : Result := readReg s.cnt s

/-- What DELAY does when it is accepted (40 R103). -/
def State.startDelay (s : State) : State :=
  { s with dacc := 0#32, dlast := s.cnt, act := .delay }

/-- DELAY (40 R103). -/
def execDelay (s : State) : Result := guardedWrite State.startDelay s

/-- The DELAY step (40 R104). -/
def State.delayStep (s : State) : State :=
  let acc := satAdd s.dacc (wrapDiff s.cnt s.dlast)
  { s with dacc := acc, dlast := s.cnt, act := if s.arg ≤ acc then .idle else s.act }

end Sys2Proof.Machine
end

