-- ==== Sys2Proof/Machine/Dispatch.lean ====
section
/-! DEFINITION. One arm per instruction: the meaning of each (spec/30_encoding.md R72, R78). -/

namespace Sys2Proof.Machine

def exec (i : Instr) (s : State) : Host.Outcome State Fault Refusal :=
  match i with
  | .nop => Sys2Proof.Machine.execNop s
  | .lineIn => Sys2Proof.Machine.execLineIn s
  | .lineOut p => Sys2Proof.Machine.execLineOut p s
  | .lineSet p => Sys2Proof.Machine.execLineSet p s
  | .delay => Sys2Proof.Machine.execDelay s
  | .sample => Sys2Proof.Machine.execSample s
  | .decodeA => Sys2Proof.Machine.execDecodeA s
  | .decodeB => Sys2Proof.Machine.execDecodeB s
  | .clrerr => Sys2Proof.Machine.execClrerr s
  | .rdCmd => Sys2Proof.Machine.execRdCmd s
  | .rdStatus => Sys2Proof.Machine.execRdStatus s
  | .rdTicks => Sys2Proof.Machine.execRdTicks s
  | .rdArg => Sys2Proof.Machine.execRdArg s
  | .wrArg v => Sys2Proof.Machine.execWrArg v s
  | .rdBrk => Sys2Proof.Machine.execRdBrk s
  | .wrBrk v => Sys2Proof.Machine.execWrBrk v s
  | .rdBit => Sys2Proof.Machine.execRdBit s
  | .wrBit v => Sys2Proof.Machine.execWrBit v s
  | .rdLine => Sys2Proof.Machine.execRdLine s
  | .rdRaw => Sys2Proof.Machine.execRdRaw s
  | .rdCks => Sys2Proof.Machine.execRdCks s
  | .rdHum => Sys2Proof.Machine.execRdHum s
  | .rdTemp => Sys2Proof.Machine.execRdTemp s
  | .rdSegcap => Sys2Proof.Machine.execRdSegcap s
  | .rdSeg k => Sys2Proof.Machine.execRdSeg k s
  | .rdRsvd off => Sys2Proof.Machine.execRdRsvd off s
  | .wrIgn off v => Sys2Proof.Machine.execWrIgn off v s

end Sys2Proof.Machine
end

