-- ==== Sys2Proof/Machine/Sequencer.lean ====
section
/-! DEFINITION. The sequencer (spec/20_memory.md R58): the one step it takes at a tick instant, and the tick instant
itself. -/

namespace Sys2Proof.Machine

/-- The sequencer's step for the current ACT; none when it is IDLE (20 R58). -/
def sequencerStep (s : State) : Result :=
  match s.act with
  | .idle => .next s
  | .delay => .next s.delayStep
  | .waitFall => .next s.waitFallStep
  | .low => lowStep s
  | .high => highStep s

/-- A tick instant: time advances, then the sequencer takes its step, before any access of the host (20 R58). While reset
is asserted no sequencer step is taken (70 R260) and the instants are not counted (log 8). -/
def tick (e : Level) (s : State) : Result :=
  if s.resetAsserted then .next { s with env := e } else sequencerStep (s.advance e)

end Sys2Proof.Machine
end

