-- ==== Sys2Proof/Machine/Fetch.lean ====
section
/-! DEFINITION. What comes next for the block (the head of the agenda, or, with nothing on it, the next tick instant), how
one event is performed, and how an access is put next. -/

namespace Sys2Proof.Machine

/-- The next event and the state without it. With an empty agenda the host makes no access and time advances, with an
external level that is a free value (92 D28; log 1, log 6). -/
def State.nextEvent (s : State) : Event × State :=
  match s.agenda with
  | [] => (.tick s.nextEnv, s)
  | ev :: rest => (ev, { s with agenda := rest })

/-- `ev` becomes the next event. -/
def State.schedule (s : State) (ev : Event) : State := { s with agenda := ev :: s.agenda }

/-- A host access: decoded and executed, or rejected (60 R225). While reset is asserted it has no defined effect, and the
model refuses it (70 R260, 93 I13; log 8). -/
def performAccess (a : Access) (s : State) : Result :=
  if s.resetAsserted then .refused .accessDuringReset
  else
    match decode a with
    | .ok i => exec i s
    | .error r => rejectAccess r a s

/-- One event: a tick instant, a host access, or a change of the reset input. -/
def perform (ev : Event) (s : State) : Result :=
  match ev with
  | .tick e => tick e s
  | .access a => performAccess a s
  | .resetAssert => .next s.assertReset
  | .resetRelease d e => .next (s.releaseReset d e)

/-- The opcode table's word becomes the host's next access (log 2), with reset not asserted, so that the access is
performed. -/
def State.placeWord (s : State) (nbits w : Nat) : State :=
  { s.schedule (.access (tableAccess nbits w)) with resetAsserted := false }

end Sys2Proof.Machine
end

