-- ==== Sys2Proof/Machine/Step.lean ====
section
/-! DEFINITION. One step: the next event of the agenda (spec/20_memory.md R58, spec/70_reset_and_hazards.md R260). -/

namespace Sys2Proof.Machine

/-- One step of the machine: it takes the next event. -/
def step (s : State) : Host.Outcome State Fault Refusal :=
  perform s.nextEvent.1 s.nextEvent.2

/-- `s` with the opcode table's word as the host's next access (log 2), so that the next step performs it. -/
def State.withFetchWord (s : State) (nbits w : Nat) : State :=
  s.placeWord nbits w

end Sys2Proof.Machine
end

