-- ==== Sys2Proof/Machine/Reference.lean ====
section
/-! DEFINITION. The source's reference host procedures, host software outside the block (spec/60_exceptions.md R245, R246;
the pseudo-instructions of spec/30_encoding.md R81; the host's own waits of spec/40_tick_source.md R107), as functions that
drive `step`. They bind the host model, not the block. A procedure answers none where the levels of its bench run out
before it ends, or where the machine stops. -/

namespace Sys2Proof.Machine

/-- The machine and what the host and the environment do around it. The spec leaves the host's latency open ("the host may
take any number of instants between accesses", 93 I15, 30 R80, 70 R267), so it is an argument here (log 13). -/
structure Bench where
  /-- The block. -/
  machine : State
  /-- The external levels of the coming tick instants. -/
  levels : List Level
  /-- How many tick instants the host lets pass before each of its coming accesses; 0 for those beyond the list. -/
  latency : List Nat
  deriving DecidableEq, Repr

/-- One event and nothing else on the agenda. -/
def drive (ev : Event) (s : State) : Option State :=
  match step { s with agenda := [ev] } with
  | .next t => some t
  | .fault _ => none
  | .refused _ => none

/-- `n` tick instants pass in which the host makes no access. -/
def passTicks : Nat → State → List Level → Option (State × List Level)
  | 0, s, es => some (s, es)
  | _ + 1, _, [] => none
  | n + 1, s, e :: es => (drive (.tick e) s).bind fun t => passTicks n t es

/-- `n` tick instants pass on a bench. -/
def Bench.pass (n : Nat) (b : Bench) : Option Bench :=
  (passTicks n b.machine b.levels).map fun (t, es) => { b with machine := t, levels := es }

/-- The host's latency before its next access (93 I15; log 13). -/
def Bench.pause (b : Bench) : Option Bench :=
  match b.latency with
  | [] => some b
  | n :: ns => { b with latency := ns }.pass n

/-- The host performs an instruction, after the latency that the bench gives it (93 I15; log 13). -/
def issue (i : Instr) (b : Bench) : Option Bench :=
  b.pause.bind fun b => (drive (.access (encode i)) b.machine).map fun t => { b with machine := t }

/-- The value that the last access read. -/
def State.readValue (s : State) : Option Word :=
  match s.bus with
  | .data v => some v
  | .none | .done | .readError _ | .writeError => none

/-- The host reads a register, after its latency. -/
def readBack (i : Instr) (b : Bench) : Option (Word × Bench) :=
  (issue i b).bind fun b' => b'.machine.readValue.map fun v => (v, b')

/-- The host reads a register in the current instant. -/
def pollOnce (i : Instr) (s : State) : Option (Word × State) :=
  (drive (.access (encode i)) s).bind fun t => t.readValue.map fun v => (v, t)

/-- Read a register once per instant, from the current one on, until its value passes (one poll per instant: log 13). -/
def pollUntil (i : Instr) (ok : Word → Bool) (s : State) : List Level → Option (State × List Level)
  | [] =>
    match pollOnce i s with
    | some (v, t) => if ok v then some (t, []) else none
    | none => none
  | e :: es =>
    match pollOnce i s with
    | some (v, t) =>
      if ok v then some (t, e :: es)
      else
        match drive (.tick e) t with
        | some u => pollUntil i ok u es
        | none => none
    | none => none

/-- `pollUntil` on a bench. -/
def Bench.pollUntil (i : Instr) (ok : Word → Bool) (b : Bench) : Option Bench :=
  (Machine.pollUntil i ok b.machine b.levels).map fun (t, es) => { b with machine := t, levels := es }

/-- WAIT: read STATUS until its bit 0 is 0 (30 R81). -/
def waitIdle (b : Bench) : Option Bench := b.pollUntil .rdStatus fun v => !v.getLsbD 0

/-- OD.HIGH: release the line (41 R125). -/
def odHigh (b : Bench) : Option Bench := issue .lineIn b

/-- OD.LOW: drive the line low (41 R126). -/
def odLow (b : Bench) : Option Bench := issue (.lineOut .low) b

/-- SLEEP n: WR ARG, n; DELAY; WAIT (30 R81). -/
def sleep (n : Word) (b : Bench) : Option Bench :=
  (issue (.wrArg n) b).bind fun b => (issue .delay b).bind waitIdle

/-- CAPTURE: SAMPLE; WAIT (30 R81). -/
def capture (b : Bench) : Option Bench :=
  (issue .sample b).bind waitIdle

/-- A host's own wait in place of a DELAY (40 R107): poll TICKS until its wrapping difference from `t0` is at least `n`
(40 R102). -/
def waitTicksFrom (t0 n : Word) (b : Bench) : Option Bench :=
  b.pollUntil .rdTicks fun v => n ≤ wrapDiff v t0

/-- The host's own wait of `n` ticks (40 R107). -/
def waitTicks (n : Word) (b : Bench) : Option Bench :=
  (readBack .rdTicks b).bind fun (t0, b) => waitTicksFrom t0 n b

/-- `sleep_at_least(n)` with both its branches (40 R107): below `SLEEP_BUSY_MAX` the busy-poll, which is DELAY; from it on
the OS sleep, which takes `osTicks` instants (the OS is outside the model: log 13), then a busy-poll of the remainder. -/
def sleepAtLeast (osTicks : Nat) (n : Word) (b : Bench) : Option Bench :=
  if n.toNat < Config.sleepBusyMax then sleep n b
  else (readBack .rdTicks b).bind fun (t0, b) => (b.pass osTicks).bind (waitTicksFrom t0 n)

/-- What a host may do to the block before its first probe (70 R264, items 3 and 4). Its items 1 and 2, the mapping and the
pull-up, lie outside the block. -/
inductive BootStep where
  /-- Release the line. -/
  | release
  /-- Write BREAK_THR. -/
  | breakThr (v : Word)
  /-- Write BIT_THR. -/
  | bitThr (v : Word)
  /-- Clear OVR and ILL. -/
  | clearErrors
  deriving DecidableEq, Repr

/-- The access that a boot step is (70 R264). -/
def BootStep.instr : BootStep → Instr
  | .release => .lineIn
  | .breakThr v => .wrBrk v
  | .bitThr v => .wrBit v
  | .clearErrors => .clrerr

/-- A boot: the steps that the host takes, any of them and in any order (70 R264, R265). -/
def boot : List BootStep → Bench → Option Bench
  | [], b => some b
  | st :: sts, b => (issue st.instr b).bind (boot sts)

/-- What the block can show of the precondition of a probe: idle, and the line released and left high (60 R240 (a), (b),
R245). -/
def State.readyForProbe (s : State) : Bool := !s.busy && s.dir == .input && s.env == .high

/-- DECODE m (30 R81). -/
def decodeInstr : SensorModel → Instr
  | .a => .decodeA
  | .b => .decodeB

/-- The outcome of one probe, as the host takes it from STATUS[11:8] (60 R245). -/
inductive ProbeOutcome where
  | success (h t : Word)
  | noResponse
  | corruptCount
  | corruptCksum
  deriving DecidableEq, Repr

/-- The outcome of the DECODE just issued, and HUM and TEMP if it is SUCCESS (60 R245, R247); none for the code NONE, which
no DECODE leaves. -/
def readOutcome (b : Bench) : Option (ProbeOutcome × Bench) :=
  match readBack .rdStatus b with
  | none => none
  | some (st, b) =>
    match (st.extractLsb' 8 4).toNat with
    | 1 =>
      (readBack .rdHum b).bind fun (h, b) => (readBack .rdTemp b).map fun (t, b) => (.success h t, b)
    | 2 => some (.noResponse, b)
    | 3 => some (.corruptCount, b)
    | 4 => some (.corruptCksum, b)
    | _ => none

/-- SLEEP `T_RELEASE`, omitted when it is 0 (60 R245). -/
def sleepRelease (tRelease : Word) (b : Bench) : Option Bench :=
  if tRelease = 0#32 then some b else sleep tRelease b

/-- `probe_once(m)` (60 R245): drive low, wait, release, wait, capture, decode, read the result. The instants that the host
lets pass between these accesses are the bench's (93 I15; log 13). -/
def probeOnce (m : SensorModel) (tStartLow tRelease : Word) (b : Bench) : Option (ProbeOutcome × Bench) :=
  (((((odLow b).bind (sleep tStartLow)).bind odHigh).bind (sleepRelease tRelease)).bind capture).bind fun b =>
    (issue (decodeInstr m) b).bind readOutcome

/-- The end of a retry loop (60 R246, 00 §6). -/
inductive ProbeResult where
  | success (h t : Word)
  | noDevice
  | exceededRetries
  deriving DecidableEq, Repr

/-- What the retry loop does with one outcome, from the countdown `noresp`: stop with a result, or go on with the new
countdown (60 R246). `corruptReload` is CORRUPT_RELOAD = 1. -/
def retryNext (corruptReload : Bool) (noresp : Nat) : ProbeOutcome → ProbeResult ⊕ Nat
  | .success h t => .inl (.success h t)
  | .noResponse =>
    if 0 < noresp then (if noresp - 1 = 0 then .inl .noDevice else .inr (noresp - 1)) else .inr noresp
  | .corruptCount | .corruptCksum => .inr (if corruptReload then Config.norespCount else 0)

/-- The retry loop over the outcomes of its attempts, in order (60 R246). -/
def retryOutcomes (corruptReload : Bool) (noresp : Nat) : List ProbeOutcome → ProbeResult
  | [] => .exceededRetries
  | o :: os =>
    match retryNext corruptReload noresp o with
    | .inl r => r
    | .inr n => retryOutcomes corruptReload n os

/-- `attempts` probes at most, from the countdown `noresp` (60 R246). The instants between two attempts are the latency that
the bench gives the next attempt's first access (93 I15; log 13). -/
def retryLoop (m : SensorModel) (tStartLow tRelease : Word) (corruptReload : Bool) :
    (attempts noresp : Nat) → Bench → Option (ProbeResult × Bench)
  | 0, _, b => some (.exceededRetries, b)
  | attempts + 1, noresp, b =>
    match probeOnce m tStartLow tRelease b with
    | none => none
    | some (o, b') =>
      match retryNext corruptReload noresp o with
      | .inl r => some (r, b')
      | .inr n => retryLoop m tStartLow tRelease corruptReload attempts n b'

/-- `probe_with_retries(m, MAX_RETRIES)`: MAX_RETRIES + 1 attempts at most (60 R246). -/
def probeWithRetries (m : SensorModel) (tStartLow tRelease : Word) (corruptReload : Bool) (maxRetries : Nat)
    (b : Bench) : Option (ProbeResult × Bench) :=
  retryLoop m tStartLow tRelease corruptReload (maxRetries + 1) Config.norespCount b

end Sys2Proof.Machine
end

