-- ==== Sys2Proof/Safety.lean ====
section
/-! DEFINITION. What the statements call a good state and an unchanged part of one. The invariants are those of
spec/10_state.md R40 and what spec/42_sampler.md R149, R150 and spec/40_tick_source.md R106 derive. -/

namespace Sys2Proof.Machine

/-- The invariants of 10 R40 that a state can show: SEGCOUNT ≤ 41; SEGCOUNT = 41 only while no SAMPLE runs; a running
DELAY has not reached ARG. -/
abbrev State.Legal (s : State) : Prop :=
  s.segcount.toNat ≤ 41 ∧
  (s.segcount.toNat = 41 → s.act.sampling = false) ∧
  (s.act = .delay → s.dacc < s.arg ∨ s.dacc = 0#32)

/-- What time has done to a running operation, between two steps of the sequencer: a DELAY polled the counter at this
instant; a SAMPLE that waits has just been accepted or has waited less than BREAK_THR; a SAMPLE in a segment has just
entered it or has been in it for less than BREAK_THR (42 R146, R150, R151). -/
abbrev State.Timed (s : State) : Prop :=
  (s.act = .delay → s.dlast = s.cnt) ∧
  (s.act = .waitFall → s.sstart = s.cnt + 1#32 ∨ s.elapsed < s.breakThr) ∧
  (s.act = .low ∨ s.act = .high → s.elapsed = 0#32 ∨ s.elapsed < s.breakThr)

/-- Where a running SAMPLE is in its log: WAITFALL has recorded nothing, LOW is at an even entry and HIGH at an odd one
(42 R149). -/
abbrev State.Alternates (s : State) : Prop :=
  (s.act = .waitFall → s.segcount.toNat = 0) ∧
  (s.act = .low → s.segcount.toNat % 2 = 0) ∧
  (s.act = .high → s.segcount.toNat % 2 = 1)

/-- The durations that a running SAMPLE has recorded: each at least 1 and at most max(BREAK_THR, 1) (42 R150). -/
abbrev State.DurationsBounded (s : State) : Prop :=
  s.act.sampling = true → ∀ k : Fin 41, k.val < s.segcount.toNat →
    1 ≤ s.seg[k].toNat ∧ s.seg[k].toNat ≤ max s.breakThr.toNat 1

/-- `t` is `s` but for the sequencer's and the sampler's own registers (42 R154). -/
abbrev State.SameOutsideSampler (s t : State) : Prop :=
  { t with seg := s.seg, segcount := s.segcount, sstart := s.sstart, act := s.act, endReason := s.endReason } = s

/-- `k` steps of the block, stopping where it stops. -/
def run (k : Nat) (s : State) : Result := core.run k s

/-- The tick instants of a waveform, as events. -/
def ticks (es : List Level) : List Event := es.map Event.tick

end Sys2Proof.Machine

namespace Sys2Proof

/-- The commands that change the line (41 R128). -/
def Instr.isLineCommand : Instr → Bool
  | .lineIn | .lineOut _ | .lineSet _ => true
  | .nop | .delay | .sample | .decodeA | .decodeB | .clrerr | .rdCmd | .rdStatus | .rdTicks | .rdArg | .wrArg _ => false
  | .rdBrk | .wrBrk _ | .rdBit | .wrBit _ | .rdLine | .rdRaw | .rdCks | .rdHum | .rdTemp | .rdSegcap => false
  | .rdSeg _ | .rdRsvd _ | .wrIgn _ _ => false

/-- The reads of format M (30 R78). -/
def Instr.isRead : Instr → Bool
  | .rdCmd | .rdStatus | .rdTicks | .rdArg | .rdBrk | .rdBit | .rdLine | .rdRaw | .rdCks | .rdHum | .rdTemp => true
  | .rdSegcap | .rdSeg _ | .rdRsvd _ => true
  | .nop | .lineIn | .lineOut _ | .lineSet _ | .delay | .sample | .decodeA | .decodeB | .clrerr => false
  | .wrArg _ | .wrBrk _ | .wrBit _ | .wrIgn _ _ => false

/-- The writes that the busy rule guards: the commands and the configuration writes (60 R221). -/
def Instr.isGuarded : Instr → Bool
  | .nop | .lineIn | .lineOut _ | .lineSet _ | .delay | .sample | .decodeA | .decodeB | .clrerr => true
  | .wrArg _ | .wrBrk _ | .wrBit _ => true
  | .rdCmd | .rdStatus | .rdTicks | .rdArg | .rdBrk | .rdBit | .rdLine | .rdRaw | .rdCks | .rdHum | .rdTemp => false
  | .rdSegcap | .rdSeg _ | .rdRsvd _ | .wrIgn _ _ => false

/-- A write to CMD, ARG, BREAK_THR or BIT_THR (60 R221). -/
def Access.isGuardedWrite : Access → Bool
  | .write _ off _ => off == 0x00#8 || off == 0x0C#8 || off == 0x10#8 || off == 0x14#8
  | .read _ _ => false

end Sys2Proof
end

