-- ==== Sys2Proof/Certificates/Slice0/Obligations.lean ====
section
/-! DEFINITION. The statements about the block, each from the spec's numbered rules (cited in its docstring and in
OBLIGATIONS.json). A step's own surroundings are always the same: the event taken leaves the agenda, and `bus` (the
model's own, log 3) holds what the block handed back. -/

open Sys2Proof Sys2Proof.Machine

/-! ### Encoding -/

/-- The decoder reads back every well-formed instruction from its access (30 R70, R72, R78). -/
def Obligations.DecodeOfEncode : Prop :=
  ∀ i : Instr, i.wellFormed = true → decode (encode i) = .ok i

/-- An access that decodes is the encoding of a well-formed instruction: no two accesses are one instruction, and no bit
of an access is dropped (30 R70, R72, R78). -/
def Obligations.EncodeOfDecode : Prop :=
  ∀ (a : Access) (i : Instr), decode a = .ok i → encode i = a ∧ i.wellFormed = true

/-- An access is rejected as malformed exactly when it is not admitted: every access that is not admitted is rejected as
malformed, and an admitted one that is rejected is an illegal command word (20 R51, R52; 30 R78). -/
def Obligations.AdmittedAccessNeverBusError : Prop :=
  ∀ a : Access,
    (a.admitted = false → ∃ r, decode a = .error r ∧ r.isBusError = true) ∧
    (∀ r, decode a = .error r → (r.isBusError = true ↔ a.admitted = false))

/-- The rows of format M do not overlap, and together they select every aligned descriptor except 0x100, which none
selects (30 R78). -/
def Obligations.RegisterRowsPartition : Prop :=
  ∀ a : BitVec 9,
    (regRows.filter fun r => r.selects a).length = if a &&& 3#9 = 0#9 ∧ a ≠ 0x100#9 then 1 else 0

/-- The eleven command words, each with its command; every other word is illegal (30 R82, R72). -/
def Obligations.LegalCommandWords : Prop :=
  ∀ (w : Word) (i : Instr), decodeCommand w = .ok i ↔
    (w, i) ∈ ([(0x00000000#32, .nop), (0x00000001#32, .lineIn), (0x00000002#32, .lineOut .low),
      (0x00000102#32, .lineOut .high), (0x00000003#32, .lineSet .low), (0x00000103#32, .lineSet .high),
      (0x00000004#32, .delay), (0x00000005#32, .sample), (0x00000006#32, .decodeA), (0x00000106#32, .decodeB),
      (0x00000007#32, .clrerr)] : List (Word × Instr))

/-- Words of the opcode table, written out from the spec's encodings, decode to the instructions they stand for
(30 R71, R78). -/
def Obligations.SpecWordsDecode : Prop :=
  decode (.write .b32 0x00#8 0b00000000000000000000000100000010#32) = .ok (.lineOut .high) ∧
  decode (.write .b32 0x00#8 0b00000000000000000000000000000101#32) = .ok .sample ∧
  decode (.write .b32 0x00#8 0b00000000000000000000000100000110#32) = .ok .decodeB ∧
  decode (.write .b32 0b00001100#8 100#32) = .ok (.wrArg 100#32) ∧
  decode (.read .b32 0b00000100#8) = .ok .rdStatus ∧
  decode (.read .b32 0b11100000#8) = .ok (.rdSeg 40) ∧
  decode (.read .b32 0b11100100#8) = .ok (.rdRsvd 0xE4#8)

/-! ### The step and the checks on an access -/

/-- A step runs the decoded instruction: with an access next that decodes to i, and reset not asserted, the step is exec
of i on the state without that access. -/
def Obligations.StepRunsDecodedInstruction : Prop :=
  ∀ (s : State) (a : Access) (rest : List Event) (i : Instr),
    s.agenda = .access a :: rest → s.resetAsserted = false → decode a = .ok i →
    step s = exec i { s with agenda := rest }

/-- A malformed access ends in BUSERR and changes no register, flag or sequencer state; the data of a read is the model's
free value (60 R223, 20 R52; log 4). -/
def Obligations.MalformedAccessChangesNothing : Prop :=
  ∀ (s : State) (a : Access) (rest : List Event),
    s.agenda = .access a :: rest → s.resetAsserted = false → (a.size ≠ .b32 ∨ a.off.toNat % 4 ≠ 0) →
    ∃ (r : Response) (n : Nat), step s = .next { s with agenda := rest, bus := r, errReads := n } ∧
      (r = .writeError ∨ ∃ v, r = .readError v)

/-- A 32-bit write to CMD, ARG, BREAK_THR or BIT_THR while busy is dropped and sets OVR, and nothing else changes; a
write to a read-only or reserved offset while busy is ignored and does not (60 R221). The clause on `bus` is the
model's own (log 3). -/
def Obligations.BusyWriteIsDropped : Prop :=
  ∀ (s : State) (off : Byte) (v : Word) (rest : List Event),
    s.agenda = .access (.write .b32 off v) :: rest → s.resetAsserted = false → s.busy = true →
    ((off = 0x00#8 ∨ off = 0x0C#8 ∨ off = 0x10#8 ∨ off = 0x14#8) →
      step s = .next { s with agenda := rest, bus := .done, ovr := true }) ∧
    (ignoredOffset off = true → step s = .next { s with agenda := rest, bus := .done })

/-- A write to CMD while idle whose word is illegal sets ILL, and nothing else changes (60 R222; 30 R74 to R76). The
clause on `bus` is the model's own (log 3). -/
def Obligations.IllegalCommandSetsIll : Prop :=
  ∀ (s : State) (w : Word) (rest : List Event),
    s.agenda = .access (.write .b32 0x00#8 w) :: rest → s.resetAsserted = false → s.busy = false →
    (8 ≤ w.toNat % 16 ∨ w.toNat / 16 % 16 ≠ 0 ∨ w.toNat / 512 ≠ 0 ∨
      (w.toNat / 256 % 2 = 1 ∧ w.toNat % 16 ∈ [0, 1, 4, 5, 7])) →
    step s = .next { s with agenda := rest, bus := .done, ill := true }

/-- The order of the checks on one access: malformed, then busy, then illegal, then execution (60 R225). The clause on
`bus` is the model's own (log 3). -/
def Obligations.AccessCheckOrder : Prop :=
  ∀ (s : State) (a : Access) (rest : List Event),
    s.agenda = .access a :: rest → s.resetAsserted = false →
    (a.admitted = false →
      ∃ (r : Response) (n : Nat), step s = .next { s with agenda := rest, bus := r, errReads := n } ∧
        (r = .writeError ∨ ∃ v, r = .readError v)) ∧
    (a.admitted = true → s.busy = true → a.isGuardedWrite = true →
      step s = .next { s with agenda := rest, bus := .done, ovr := true }) ∧
    (a.admitted = true → (s.busy = false ∨ a.isGuardedWrite = false) →
      match decode a with
      | .error r => r.isBusError = false ∧ step s = .next { s with agenda := rest, bus := .done, ill := true }
      | .ok i => step s = exec i { s with agenda := rest })

/-- Errors are precise: whatever the host's access, if it is no instruction, or a guarded write while busy, the state
after it is the state before it with at most one flag set (60 R228; R221 to R223). -/
def Obligations.ErrorsSetAtMostOneFlag : Prop :=
  ∀ (s : State) (a : Access) (rest : List Event),
    s.agenda = .access a :: rest → s.resetAsserted = false →
    ((∃ r, decode a = .error r) ∨ (s.busy = true ∧ ∃ i, decode a = .ok i ∧ i.isGuarded = true)) →
    ∃ (r : Response) (n : Nat),
      step s = .next { s with agenda := rest, bus := r, errReads := n } ∨
      step s = .next { s with agenda := rest, bus := r, errReads := n, ovr := true } ∨
      step s = .next { s with agenda := rest, bus := r, errReads := n, ill := true }

/-! ### Reads -/

/-- Every read completes, busy or not, and changes nothing but what it hands back (20 R54). -/
def Obligations.ReadsHaveNoSideEffect : Prop :=
  ∀ (i : Instr) (s : State), i.isRead = true → ∃ v, exec i s = .next { s with bus := .data v }

/-- RD.STATUS reads the fields at their bits: SEGCOUNT at 21:16, OUTCOME at 11:8, ILL 6, OVR 5, END 4, ACT 3:1, BUSY 0,
and zeros elsewhere (44 R205, 10 R21, R22). -/
def Obligations.StatusReadsItsFields : Prop :=
  ∀ s : State, ∃ w : Word, exec .rdStatus s = .next { s with bus := .data w } ∧
    w.toNat = s.segcount.toNat * 2 ^ 16 +
      (match s.outcome with
        | .none => 0 | .success => 1 | .noResponse => 2 | .corruptCount => 3 | .corruptCksum => 4) * 2 ^ 8 +
      s.ill.toNat * 2 ^ 6 + s.ovr.toNat * 2 ^ 5 + (if s.endReason = .full then 1 else 0) * 2 ^ 4 +
      (match s.act with | .idle => 0 | .delay => 1 | .waitFall => 2 | .low => 3 | .high => 4) * 2 +
      (if s.act = .idle then 0 else 1)

/-- RD.LINE reads {OUT, DIR, IN}, and IN is the level of the line: E when released, 0 when driven low, 1 when driven high
with E = 1, and either level under contention (41 R124, R120, R129; the contention level is the model's free value, log
7). -/
def Obligations.LineReadsThePin : Prop :=
  ∀ s : State, ∃ (w : Word) (pin : Level), exec .rdLine s = .next { s with bus := .data w } ∧
    w.toNat = (if s.out = .high then 4 else 0) + (if s.dir = .output then 2 else 0) + (if pin = .high then 1 else 0) ∧
    (s.dir = .input → pin = s.env) ∧
    (s.dir = .output → s.out = .low → pin = .low) ∧
    (s.dir = .output → s.out = .high → s.env = .high → pin = .high)

/-- RD.TICKS, RD.ARG, RD.BRK, RD.BIT, RD.RAW return their registers; RD.CMD returns 0 and RD.SEGCAP 41 (40 R101; 44 R206,
R207, R209, R211). -/
def Obligations.PlainRegisterReads : Prop :=
  ∀ s : State,
    exec .rdTicks s = .next { s with bus := .data s.cnt } ∧
    exec .rdArg s = .next { s with bus := .data s.arg } ∧
    exec .rdBrk s = .next { s with bus := .data s.breakThr } ∧
    exec .rdBit s = .next { s with bus := .data s.bitThr } ∧
    exec .rdRaw s = .next { s with bus := .data s.raw } ∧
    exec .rdCmd s = .next { s with bus := .data 0#32 } ∧
    exec .rdSegcap s = .next { s with bus := .data 41#32 }

/-- RD.CKS reads CALC above RECV with bits 31:16 zero; RD.HUM reads HUM[15:0] with bits 31:16 zero; RD.TEMP, read as a
signed integer, is the 16-bit two's complement temperature (10 R30, R31, R32; 44 R207, R208). -/
def Obligations.ResultRegisterReads : Prop :=
  ∀ s : State,
    (∃ w : Word, exec .rdCks s = .next { s with bus := .data w } ∧
      w.toNat = s.cksCalc.toNat * 256 + s.cksRecv.toNat) ∧
    (∃ w : Word, exec .rdHum s = .next { s with bus := .data w } ∧ w.toNat = s.hum.toNat) ∧
    (∃ w : Word, exec .rdTemp s = .next { s with bus := .data w } ∧ w.toInt = s.temp.toInt)

/-- The read at offset 0x40 + 4k, for k = 0 to 40, is RD.SEG k, and it returns SEG[k] (44 R210, 10 R34). -/
def Obligations.SegmentReads : Prop :=
  ∀ (s : State) (k : Fin 41) (off : Byte), off.toNat = 0x40 + 4 * k.val →
    decode (.read .b32 off) = .ok (.rdSeg k) ∧ exec (.rdSeg k) s = .next { s with bus := .data s.seg[k] }

/-- A 32-bit aligned read of offsets 0x30–0x3C or 0xE4–0xFC returns 0 and has no effect (44 R213). The clause on `bus`
is the model's own (log 3). -/
def Obligations.ReservedReadsReturnZero : Prop :=
  ∀ (s : State) (off : Byte) (rest : List Event),
    s.agenda = .access (.read .b32 off) :: rest → s.resetAsserted = false → off.toNat % 4 = 0 →
    ((0x30 ≤ off.toNat ∧ off.toNat ≤ 0x3C) ∨ (0xE4 ≤ off.toNat ∧ off.toNat ≤ 0xFC)) →
    exec (.rdRsvd off) { s with agenda := rest } = .next { s with agenda := rest, bus := .data 0#32 } ∧
    step s = .next { s with agenda := rest, bus := .data 0#32 }

/-- A 32-bit aligned write to STATUS, TICKS, LINE, RAW, CKS, HUM, TEMP, SEGCAP or any offset in 0x30–0xFC has no
effect and sets no flag, whatever BUSY is (44 R212). The clause on `bus` is the model's own (log 3). -/
def Obligations.IgnoredWritesChangeNothing : Prop :=
  ∀ (s : State) (off : Byte) (v : Word) (rest : List Event),
    s.agenda = .access (.write .b32 off v) :: rest → s.resetAsserted = false → off.toNat % 4 = 0 →
    (off.toNat = 0x04 ∨ off.toNat = 0x08 ∨ off.toNat = 0x18 ∨ (0x1C ≤ off.toNat ∧ off.toNat ≤ 0x2C) ∨
      (0x30 ≤ off.toNat ∧ off.toNat ≤ 0xFC)) →
    exec (.wrIgn off v) { s with agenda := rest } = .next { s with agenda := rest, bus := .done } ∧
    step s = .next { s with agenda := rest, bus := .done }

/-! ### Commands and configuration writes -/

/-- While idle WR.ARG, WR.BRK and WR.BIT store their value and change nothing else (44 R202, R203, R204). The clause
on `bus` is the model's own (log 3). -/
def Obligations.ConfigurationWrites : Prop :=
  ∀ (s : State) (v : Word), s.busy = false →
    exec (.wrArg v) s = .next { s with bus := .done, arg := v } ∧
    exec (.wrBrk v) s = .next { s with bus := .done, breakThr := v } ∧
    exec (.wrBit v) s = .next { s with bus := .done, bitThr := v }

/-- While idle LINE.IN clears DIR and keeps OUT; LINE.OUT p sets OUT to p and DIR to 1; LINE.SET p sets OUT to p and
keeps DIR; nothing else changes (41 R121, R122, R123). The clause on `bus` is the model's own (log 3). -/
def Obligations.LineCommands : Prop :=
  ∀ (s : State) (p : Level), s.busy = false →
    exec .lineIn s = .next { s with bus := .done, dir := .input } ∧
    exec (.lineOut p) s = .next { s with bus := .done, dir := .output, out := p } ∧
    exec (.lineSet p) s = .next { s with bus := .done, out := p }

/-- While idle NOP changes nothing, and CLRERR clears OVR and ILL and changes nothing else (44 R200, R201). The clause
on `bus` is the model's own (log 3). -/
def Obligations.NopAndClrerr : Prop :=
  ∀ s : State, s.busy = false →
    exec .nop s = .next { s with bus := .done } ∧
    exec .clrerr s = .next { s with bus := .done, ovr := false, ill := false }

/-- While idle DELAY clears DACC, sets DLAST to CNT and ACT to DELAY; SAMPLE clears SEGCOUNT and OUTCOME, sets SSTART
to CNT + 1 and ACT to WAITFALL; nothing else changes: neither END, nor SEG, nor a result register (40 R103, 42 R140).
The clause on `bus` is the model's own (log 3). -/
def Obligations.DelayAndSampleAcceptance : Prop :=
  ∀ s : State, s.busy = false →
    exec .delay s = .next { s with bus := .done, dacc := 0#32, dlast := s.cnt, act := .delay } ∧
    exec .sample s = .next { s with bus := .done, segcount := 0#6, outcome := .none,
                                    sstart := s.cnt + 1#32, act := .waitFall }

/-! ### The decoder -/

/-- DECODE with no segments gives NO_RESPONSE, with 1 to 39 CORRUPT_COUNT; in both cases nothing else changes (43
R171). The clause on `bus` is the model's own (log 3). -/
def Obligations.DecodeCountsSegments : Prop :=
  ∀ (s : State) (i : Instr), s.busy = false → (i = .decodeA ∨ i = .decodeB) →
    (s.segcount.toNat = 0 → exec i s = .next { s with bus := .done, outcome := .noResponse }) ∧
    (1 ≤ s.segcount.toNat → s.segcount.toNat ≤ 39 →
      exec i s = .next { s with bus := .done, outcome := .corruptCount })

/-- With 40 or 41 segments, bit 7 - m of byte b is 1 exactly when segment j + 8b + m is longer than BIT_THR, where j is 0
for 40 segments and 1 for 41; bytes 0 to 3 stand in RAW, byte 0 lowest, and byte 4 in CKS[7:0], whatever the checksum
says (43 R172, R173, R174, R175). -/
def Obligations.DecodePacksThresholdedBits : Prop :=
  ∀ (s : State) (i : Instr) (j : Nat) (hj : j < 2), s.busy = false → (i = .decodeA ∨ i = .decodeB) →
    s.segcount.toNat = 40 + j →
    ∃ t, exec i s = .next t ∧ ∀ b m : Fin 8, (hb : b.val < 5) →
      (if b.val < 4 then t.raw.getLsbD (8 * b.val + (7 - m.val)) else t.cksRecv.getLsbD (7 - m.val)) =
        decide (s.bitThr.toNat < (s.seg[j + (8 * b.val + m.val)]'(by omega)).toNat)

/-- With 40 or more segments, CKS[15:8] is the sum of the four bytes of RAW mod 256, and DECODE gives SUCCESS or
CORRUPT_CKSUM as it equals the received byte or not; on a mismatch HUM and TEMP keep their values (43 R176, R175,
R179). -/
def Obligations.DecodeChecksTheSum : Prop :=
  ∀ (s : State) (i : Instr), s.busy = false → (i = .decodeA ∨ i = .decodeB) → 40 ≤ s.segcount.toNat →
    ∃ t, exec i s = .next t ∧
      t.cksCalc.toNat =
        (t.raw.toNat % 256 + t.raw.toNat / 256 % 256 + t.raw.toNat / 65536 % 256 + t.raw.toNat / 16777216) % 256 ∧
      (t.cksCalc = t.cksRecv → t.outcome = .success) ∧
      (t.cksCalc ≠ t.cksRecv → t.outcome = .corruptCksum ∧ t.hum = s.hum ∧ t.temp = s.temp)

/-- A change of one bit in one of five bytes whose checksum matches makes it mismatch (43 R176). -/
def Obligations.SingleBitChangeBreaksChecksum : Prop :=
  ∀ (b0 b1 b2 b3 b4 : Byte) (p : Fin 8), checksum b0 b1 b2 b3 = b4 →
    checksum (b0 ^^^ (1#8 <<< p.val)) b1 b2 b3 ≠ b4 ∧ checksum b0 (b1 ^^^ (1#8 <<< p.val)) b2 b3 ≠ b4 ∧
    checksum b0 b1 (b2 ^^^ (1#8 <<< p.val)) b3 ≠ b4 ∧ checksum b0 b1 b2 (b3 ^^^ (1#8 <<< p.val)) ≠ b4 ∧
    checksum b0 b1 b2 b3 ≠ b4 ^^^ (1#8 <<< p.val)

/-- On a checksum match DECODE.A stores exactly 10·byte0 + byte1 in HUM and exactly 10·s8(byte2) + s8(byte3) in TEMP: both
fit in 16 bits. The rule's examples are clauses (43 R177, R179). -/
def Obligations.DecodeModelAValues : Prop :=
  (∀ s : State, s.busy = false → 40 ≤ s.segcount.toNat →
    ∃ t, exec .decodeA s = .next t ∧ (t.cksCalc = t.cksRecv →
      t.outcome = .success ∧
      t.hum.toNat = 10 * (t.raw.toNat % 256) + t.raw.toNat / 256 % 256 ∧
      t.temp.toInt = 10 * (t.raw.extractLsb' 16 8).toInt + (t.raw.extractLsb' 24 8).toInt)) ∧
  tempA 0xFF#8 0x05#8 = -5 ∧ tempA 0x00#8 0x85#8 = -123 ∧ tempA 0x80#8 0x80#8 = -1408

/-- On a checksum match DECODE.B stores byte0·256 + byte1 in HUM and {byte2, byte3}, read as a 16-bit two's complement
number, in TEMP. The rule's examples are clauses (43 R178, R179). -/
def Obligations.DecodeModelBValues : Prop :=
  (∀ s : State, s.busy = false → 40 ≤ s.segcount.toNat →
    ∃ t, exec .decodeB s = .next t ∧ (t.cksCalc = t.cksRecv →
      t.outcome = .success ∧
      t.hum.toNat = t.raw.toNat % 256 * 256 + t.raw.toNat / 256 % 256 ∧
      t.temp.toInt = (t.raw.extractLsb' 16 8).toInt * 256 + (t.raw.toNat / 16777216 : Nat) ∧
      t.temp = t.raw.extractLsb' 16 8 ++ t.raw.extractLsb' 24 8)) ∧
  tempB 0xFF#8 0x9C#8 = -100 ∧ tempB 0x80#8 0x65#8 = -32667

/-- DECODE.A and DECODE.B complete in every idle state and write only OUTCOME, RAW, CKS, HUM and TEMP: not the log,
SEGCOUNT, the line, ACT or a flag (43 R180, R181, R182). The clause on `bus` is the model's own (log 3). -/
def Obligations.DecodeWritesOnlyResults : Prop :=
  ∀ (s : State) (i : Instr), s.busy = false → (i = .decodeA ∨ i = .decodeB) →
    ∃ t, exec i s = .next t ∧
      { t with outcome := s.outcome, raw := s.raw, cksRecv := s.cksRecv, cksCalc := s.cksCalc,
               hum := s.hum, temp := s.temp, bus := s.bus } = s ∧
      t.outcome ≠ .none ∧ t.bus = .done

/-- Decoding one log again gives the same state, and decoding it under the other model gives the same bytes, checksum and
outcome (43 R182). -/
def Obligations.DecodeAgainGivesTheSame : Prop :=
  ∀ (s t u : State) (i k : Instr), s.busy = false → (i = .decodeA ∨ i = .decodeB) → (k = .decodeA ∨ k = .decodeB) →
    exec i s = .next t → exec k t = .next u →
    u.raw = t.raw ∧ u.cksRecv = t.cksRecv ∧ u.cksCalc = t.cksCalc ∧ u.outcome = t.outcome ∧ (k = i → u = t)

/-! ### Time, DELAY and the sampler's steps -/

/-- CNT advances by exactly 1 modulo 2^32 at every tick instant and at no other event: CNT = TICK_RESET + n is kept by
every step but the release of reset, which sets CNT to TICK_RESET and n to 0 (40 R100, 20 R57). -/
def Obligations.CounterFollowsTime : Prop :=
  ∀ s t : State, step s = .next t →
    (∀ tickReset : Nat, s.cnt = BitVec.ofNat 32 (tickReset + s.instant) →
      (∀ d e rest, s.agenda ≠ .resetRelease d e :: rest) → t.cnt = BitVec.ofNat 32 (tickReset + t.instant)) ∧
    (∀ e rest, s.agenda = .tick e :: rest → s.resetAsserted = false → t.instant = s.instant + 1) ∧
    (∀ a rest, s.agenda = .access a :: rest → t.instant = s.instant) ∧
    (∀ d e rest, s.agenda = .resetRelease d e :: rest → s.resetAsserted = true → t.cnt = d.tick ∧ t.instant = 0)

/-- The elapsed count between two readings of the counter is right for fewer than 2^32 ticks, although the counter wraps,
and aliases modulo 2^32 beyond (40 R102, 70 R274). -/
def Obligations.WrappingDifferenceIsElapsed : Prop :=
  ∀ (c : Word) (m : Nat), (wrapDiff (c + BitVec.ofNat 32 m) c).toNat = m % 2 ^ 32

/-- `a +sat b` is min(a + b, 2^32 - 1), so that DACC never decreases in a DELAY step (40 R105). -/
def Obligations.SaturatingSum : Prop :=
  (∀ a b : Word, (satAdd a b).toNat = min (a.toNat + b.toNat) (2 ^ 32 - 1)) ∧
  (∀ s : State, s.dacc.toNat ≤ s.delayStep.dacc.toNat)

/-- At a tick with ACT = IDLE the sequencer takes no step: only time and E change (20 R58). -/
def Obligations.IdleTickTakesNoStep : Prop :=
  ∀ (s : State) (e : Level) (rest : List Event),
    s.agenda = .tick e :: rest → s.resetAsserted = false → s.act = .idle →
    step s = .next { s with agenda := rest, cnt := s.cnt + 1#32, instant := s.instant + 1, env := e }

/-- The DELAY step, at each tick: DACC takes DACC +sat (CNT -w DLAST), DLAST takes CNT, and ACT becomes IDLE once DACC
reaches ARG; nothing else changes but time (40 R104). -/
def Obligations.DelayStepEachTick : Prop :=
  ∀ (s : State) (e : Level) (rest : List Event) (acc : Word),
    s.agenda = .tick e :: rest → s.resetAsserted = false → s.act = .delay →
    acc.toNat = min (s.dacc.toNat + (s.cnt + 1#32 - s.dlast).toNat) (2 ^ 32 - 1) →
    step s = .next { s with agenda := rest, cnt := s.cnt + 1#32, instant := s.instant + 1, env := e,
                            dacc := acc, dlast := s.cnt + 1#32,
                            act := if s.arg.toNat ≤ acc.toNat then .idle else .delay }

/-- A DELAY with ARG = m lasts max(m, 1) tick instants: k instants after the one that accepts it, DACC is k and BUSY is 1
for k < max(m, 1), and BUSY is 0 from k = max(m, 1) on, whatever the line does (40 R106, R103, R104). -/
def Obligations.DelayLastsItsTicks : Prop :=
  ∀ (s : State) (es : List Level), s.busy = false → s.resetAsserted = false →
    ∃ t, run (es.length + 1) { s with agenda := .access (encode .delay) :: ticks es } = .next t ∧
      t.agenda = [] ∧
      t.act = (if es.length < max s.arg.toNat 1 then .delay else .idle) ∧
      t.dacc.toNat = min es.length (max s.arg.toNat 1)

/-- The WAITFALL step: a low sample starts the first segment and records nothing; otherwise BREAK at the threshold,
counted from SSTART; otherwise nothing but time (42 R142; a level change beats a timeout, R141). -/
def Obligations.WaitFallStep : Prop :=
  ∀ (s u : State) (e : Level) (rest : List Event),
    s.agenda = .tick e :: rest → s.resetAsserted = false → s.act = .waitFall →
    u = { s with agenda := rest, cnt := s.cnt + 1#32, instant := s.instant + 1, env := e } →
    step s = .next (
      if u.pin = .low then { u with sstart := u.cnt, act := .low }
      else if u.breakThr.toNat ≤ (u.cnt - u.sstart).toNat then { u with endReason := .brk, act := .idle }
      else u)

/-- The LOW step: a high sample records CNT -w SSTART as the next entry, starts the next segment, and goes to HIGH, or ends
the SAMPLE with FULL at the 41st entry; otherwise BREAK at the threshold; otherwise nothing but time (42 R143, R145,
R146, R147). -/
def Obligations.LowStep : Prop :=
  ∀ (s u : State) (e : Level) (rest : List Event) (hc : s.segcount.toNat < 41),
    s.agenda = .tick e :: rest → s.resetAsserted = false → s.act = .low →
    u = { s with agenda := rest, cnt := s.cnt + 1#32, instant := s.instant + 1, env := e } →
    step s = .next (
      if u.pin = .high then
        { u with seg := u.seg.set s.segcount.toNat (u.cnt - u.sstart) hc, sstart := u.cnt,
                 segcount := BitVec.ofNat 6 (s.segcount.toNat + 1),
                 endReason := if s.segcount.toNat = 40 then .full else s.endReason,
                 act := if s.segcount.toNat = 40 then .idle else .high }
      else if u.breakThr.toNat ≤ (u.cnt - u.sstart).toNat then { u with endReason := .brk, act := .idle }
      else u)

/-- The HIGH step, symmetric to the LOW step: a low sample records the segment and goes to LOW, or ends the SAMPLE with
FULL (42 R144, R145, R146, R147). -/
def Obligations.HighStep : Prop :=
  ∀ (s u : State) (e : Level) (rest : List Event) (hc : s.segcount.toNat < 41),
    s.agenda = .tick e :: rest → s.resetAsserted = false → s.act = .high →
    u = { s with agenda := rest, cnt := s.cnt + 1#32, instant := s.instant + 1, env := e } →
    step s = .next (
      if u.pin = .low then
        { u with seg := u.seg.set s.segcount.toNat (u.cnt - u.sstart) hc, sstart := u.cnt,
                 segcount := BitVec.ofNat 6 (s.segcount.toNat + 1),
                 endReason := if s.segcount.toNat = 40 then .full else s.endReason,
                 act := if s.segcount.toNat = 40 then .idle else .low }
      else if u.breakThr.toNat ≤ (u.cnt - u.sstart).toNat then { u with endReason := .brk, act := .idle }
      else u)

/-- A recorded duration is the length of a run of the line. A sampler that has just entered LOW or HIGH on a released
line records d exactly when the level holds for d - 1 further instants and then changes, for every d from 1 to
max(BREAK_THR, 1); a level that holds for max(BREAK_THR, 1) further instants is a break and records nothing (42 R150,
R143, R144, R146). -/
def Obligations.RunLengthIsRecorded : Prop :=
  ∀ (s : State) (same other : Level) (d : Nat) (hc : s.segcount.toNat < 41),
    ((s.act = .low ∧ same = .low ∧ other = .high) ∨ (s.act = .high ∧ same = .high ∧ other = .low)) →
    s.resetAsserted = false → s.dir = .input → s.sstart = s.cnt →
    (1 ≤ d → d ≤ max s.breakThr.toNat 1 →
      ∃ t, run d { s with agenda := ticks (List.replicate (d - 1) same ++ [other]) } = .next t ∧
        t.segcount.toNat = s.segcount.toNat + 1 ∧ (t.seg[s.segcount.toNat]'hc).toNat = d ∧ t.sstart = t.cnt) ∧
    (d = max s.breakThr.toNat 1 →
      ∃ t, run d { s with agenda := ticks (List.replicate d same) } = .next t ∧
        t.act = .idle ∧ t.endReason = .brk ∧ t.segcount = s.segcount ∧ t.seg = s.seg)

/-- Every SAMPLE terminates, whatever the waveform: with BREAK_THR = T, BUSY is 0 at the latest 1 + T + 41·max(T, 1)
instants after the one that accepts it, and from then on (42 R151). -/
def Obligations.SampleTerminates : Prop :=
  ∀ (s : State) (es : List Level), s.busy = false → s.resetAsserted = false →
    1 + s.breakThr.toNat + 41 * max s.breakThr.toNat 1 ≤ es.length →
    ∃ t, run (es.length + 1) { s with agenda := .access (encode .sample) :: ticks es } = .next t ∧
      t.agenda = [] ∧ t.act = .idle ∧ t.segcount.toNat ≤ 41

/-- A line that never falls: a SAMPLE of a released line that stays high ends by BREAK with no segment at the instant
1 + T after acceptance, and DECODE.A or DECODE.B after it gives NO_RESPONSE (42 R142, R146, R148; 43 R171). -/
def Obligations.SilentLineGivesNoResponse : Prop :=
  ∀ (s : State) (i : Instr) (n : Nat), s.busy = false → s.resetAsserted = false → s.dir = .input →
    (i = .decodeA ∨ i = .decodeB) → s.breakThr.toNat + 1 ≤ n →
    ∃ t, run (n + 2)
        { s with agenda := .access (encode .sample) :: (ticks (List.replicate n .high) ++ [.access (encode i)]) } =
        .next t ∧
      t.segcount = 0#6 ∧ t.endReason = .brk ∧ t.act = .idle ∧ t.outcome = .noResponse ∧ t.seg = s.seg

/-- A SAMPLE while the block drives the line low sees its own drive: it breaks with no segment max(T, 1) ticks after its
first sample, whatever the sensor does (70 R268). -/
def Obligations.SampleOfDrivenLowLineBreaks : Prop :=
  ∀ (s : State) (es : List Level), s.busy = false → s.resetAsserted = false → s.dir = .output → s.out = .low →
    1 + max s.breakThr.toNat 1 ≤ es.length →
    ∃ t, run (es.length + 1) { s with agenda := .access (encode .sample) :: ticks es } = .next t ∧
      t.segcount = 0#6 ∧ t.endReason = .brk ∧ t.act = .idle ∧ t.seg = s.seg

/-- During a SAMPLE a tick writes only SEG, SEGCOUNT, SSTART, ACT and END, and of SEG at most the entry at SEGCOUNT;
besides these only time, E and the agenda change (42 R154). -/
def Obligations.SamplerWritesOnlyItsOwn : Prop :=
  ∀ (s : State) (e : Level) (rest : List Event),
    s.agenda = .tick e :: rest → s.resetAsserted = false → s.act.sampling = true → s.segcount.toNat < 41 →
    ∃ t, step s = .next t ∧
      ({ s with agenda := rest, cnt := s.cnt + 1#32, instant := s.instant + 1, env := e } : State).SameOutsideSampler t ∧
      ∀ k : Fin 41, k.val ≠ s.segcount.toNat → t.seg[k] = s.seg[k]

/-! ### Invariants -/

/-- Every step keeps the invariants of 10 R40, whatever the host, the environment and the platform do. -/
def Obligations.LegalIsKept : Prop :=
  ∀ s t : State, s.Legal → step s = .next t → t.Legal

/-- Every step keeps the timing invariant: a running DELAY has polled this instant, and a running SAMPLE has waited less
than BREAK_THR since its segment or its wait began (42 R146, R150, R151; 40 R104). -/
def Obligations.TimedIsKept : Prop :=
  ∀ s t : State, s.Timed → step s = .next t → t.Timed

/-- Every step keeps the alternation of levels: entries of even index are low segments and entries of odd index high ones
(42 R149). -/
def Obligations.AlternationIsKept : Prop :=
  ∀ s t : State, s.Alternates → step s = .next t → t.Alternates

/-- Every step keeps the bounds on what a running SAMPLE has recorded: each duration is at least 1 and at most
max(BREAK_THR, 1) (42 R150). -/
def Obligations.DurationBoundsAreKept : Prop :=
  ∀ s t : State, s.Timed → s.DurationsBounded → step s = .next t → t.DurationsBounded

/-- The invariants hold after reset, whatever the reset leaves open. -/
def Obligations.InvariantsHoldAfterReset : Prop :=
  ∀ d : Config.ResetDraws,
    (State.resetWith d).Legal ∧ (State.resetWith d).Timed ∧ (State.resetWith d).Alternates ∧
      (State.resetWith d).DurationsBounded

/-- From a state that meets 10 R40 no step stops, but for a host access while reset is asserted (which the spec gives no
effect, 70 R260), and the next state meets it again. -/
def Obligations.LegalMachineNeverStops : Prop :=
  ∀ s : State, s.Legal → (s.resetAsserted = true → ∀ a rest, s.agenda ≠ .access a :: rest) →
    ∃ t, step s = .next t ∧ t.Legal

/-! ### Whole-machine rules -/

/-- Only LINE.IN, LINE.OUT, LINE.SET, accepted while idle, and the release of reset change LINE.DIR and LINE.OUT
(41 R128). -/
def Obligations.OnlyLineCommandsMoveTheLine : Prop :=
  ∀ s t : State, step s = .next t → (t.dir ≠ s.dir ∨ t.out ≠ s.out) →
    (∃ a rest i, s.agenda = .access a :: rest ∧ decode a = .ok i ∧ i.isLineCommand = true ∧ s.busy = false) ∨
    (∃ d e rest, s.agenda = .resetRelease d e :: rest ∧ s.resetAsserted = true)

/-- Only a push of the LOW or HIGH step at a tick, and the release of reset, write the segment log, and a push writes the
entry at SEGCOUNT alone: no host access does (10 R34, 20 R64). -/
def Obligations.OnlyThePushWritesTheLog : Prop :=
  ∀ s t : State, step s = .next t → t.seg ≠ s.seg →
    ((∃ d e rest, s.agenda = .resetRelease d e :: rest ∧ s.resetAsserted = true) ∨
      ((s.agenda = [] ∨ ∃ e rest, s.agenda = .tick e :: rest) ∧ (s.act = .low ∨ s.act = .high) ∧
        t.segcount.toNat = s.segcount.toNat + 1 ∧
        ∀ k : Fin 41, k.val ≠ s.segcount.toNat → t.seg[k] = s.seg[k]))

/-- OVR and ILL are sticky: once 1 they stay 1 until a CLRERR accepted while idle, or the release of reset (60 R229,
44 R201). -/
def Obligations.ErrorFlagsAreSticky : Prop :=
  ∀ s t : State, step s = .next t → ((s.ovr = true ∧ t.ovr = false) ∨ (s.ill = true ∧ t.ill = false)) →
    (∃ a rest, s.agenda = .access a :: rest ∧ decode a = .ok .clrerr ∧ s.busy = false) ∨
    (∃ d e rest, s.agenda = .resetRelease d e :: rest ∧ s.resetAsserted = true)

/-- There is no abort: a running DELAY or SAMPLE goes back to IDLE only at a tick, by its own step, or by a reset
(42 R155, R146, R147; 40 R104). -/
def Obligations.NoAbort : Prop :=
  ∀ s t : State, step s = .next t → s.act ≠ .idle → t.act = .idle →
    (s.agenda = [] ∨ ∃ e rest, s.agenda = .tick e :: rest) ∨
    (∃ d e rest, s.agenda = .resetRelease d e :: rest ∧ s.resetAsserted = true)

/-! ### Reset -/

/-- The release of reset gives every register its value of the reset table, read as the host reads it; CNT is TICK_RESET
and SEG holds one draw per entry, for every choice of these (70 R261; the values that the spec leaves open are the
arguments d and e). -/
def Obligations.ResetTable : Prop :=
  ∀ (s : State) (d : Config.ResetDraws) (e : Level) (rest : List Event),
    s.agenda = .resetRelease d e :: rest → s.resetAsserted = true →
    ∃ t, step s = .next t ∧ t.agenda = rest ∧
      exec .rdTicks t = .next { t with bus := .data d.tick } ∧
      t.busy = false ∧ t.act = .idle ∧ t.endReason = .brk ∧ t.ovr = false ∧ t.ill = false ∧ t.outcome = .none ∧
      t.segcount = 0#6 ∧
      exec .rdStatus t = .next { t with bus := .data 0x00000000#32 } ∧
      exec .rdArg t = .next { t with bus := .data 0#32 } ∧
      exec .rdBrk t = .next { t with bus := .data 0x000001F4#32 } ∧
      exec .rdBit t = .next { t with bus := .data 0x00000032#32 } ∧
      t.dir = .input ∧ t.out = .low ∧ t.pin = e ∧
      exec .rdRaw t = .next { t with bus := .data 0#32 } ∧ exec .rdCks t = .next { t with bus := .data 0#32 } ∧
      exec .rdHum t = .next { t with bus := .data 0#32 } ∧ exec .rdTemp t = .next { t with bus := .data 0#32 } ∧
      exec .rdSegcap t = .next { t with bus := .data 41#32 } ∧
      t.seg = d.seg ∧ t.sstart = d.sstart ∧ t.dacc = d.dacc ∧ t.dlast = d.dlast

/-- While reset is asserted a tick takes no sequencer step and changes no register, and a host access, which the spec gives
no defined effect, is refused by name (70 R260, 93 I13; log 8). Asserting it changes nothing but the input. -/
def Obligations.AssertedResetHoldsTheBlock : Prop :=
  (∀ (s : State) (rest : List Event), s.agenda = .resetAssert :: rest →
    step s = .next { s with agenda := rest, resetAsserted := true }) ∧
  (∀ (s : State) (e : Level) (rest : List Event), s.agenda = .tick e :: rest → s.resetAsserted = true →
    step s = .next { s with agenda := rest, env := e }) ∧
  (∀ (s : State) (a : Access) (rest : List Event), s.agenda = .access a :: rest → s.resetAsserted = true →
    step s = .refused .accessDuringReset)

/-! ### The reference host -/

/-- The no-response countdown: the tenth NO_RESPONSE in a row ends the retries with NoDevice, nine do not; and with
CORRUPT_RELOAD = 0, after a corrupted frame the retries never end with NoDevice, while with CORRUPT_RELOAD = 1 ten more
NO_RESPONSE are needed and enough (60 R246; 90 C9). That the count is ten is the model's choice of R7's value (log 19). -/
def Obligations.RetryCountdown : Prop :=
  (∀ (r : Bool) (os : List ProbeOutcome),
    retryOutcomes r Config.norespCount (List.replicate 10 .noResponse ++ os) = .noDevice) ∧
  (∀ (r : Bool) (n : Nat), n < 10 →
    retryOutcomes r Config.norespCount (List.replicate n .noResponse) = .exceededRetries) ∧
  (∀ (n : Nat) (c : ProbeOutcome) (os : List ProbeOutcome), (c = .corruptCount ∨ c = .corruptCksum) →
    retryOutcomes false n (c :: os) ≠ .noDevice) ∧
  (∀ (n : Nat) (c : ProbeOutcome) (os : List ProbeOutcome), (c = .corruptCount ∨ c = .corruptCksum) →
    retryOutcomes true n (c :: (List.replicate 10 .noResponse ++ os)) = .noDevice) ∧
  (∀ (n k : Nat) (c : ProbeOutcome), (c = .corruptCount ∨ c = .corruptCksum) → k < 10 →
    retryOutcomes true n (c :: List.replicate k .noResponse) = .exceededRetries)

/-- A probe of an idle block, when it ends, leaves the block idle and the line released, whatever the sensor did, however
long the host took between its accesses, and whatever the outcome (60 R245, R242; 93 I15). The host polls once per
instant (the model's choice, log 13). -/
def Obligations.ProbeLeavesLineReleased : Prop :=
  ∀ (m : SensorModel) (tStartLow tRelease : Word) (b b' : Bench) (o : ProbeOutcome),
    b.machine.busy = false → b.machine.resetAsserted = false → probeOnce m tStartLow tRelease b = some (o, b') →
    b'.machine.dir = .input ∧ b'.machine.busy = false
end

