-- ==== Sys2Proof/Laws/Decode.lean ====
section
/-! SUPPORT. The rows of format M on every descriptor, and the fields of a command word. -/

namespace Sys2Proof

set_option maxRecDepth 100000 in
/-- The rows cover every aligned descriptor but A = 0x100 (30 R78). -/
theorem decodeRegister_covers :
    ∀ a : BitVec 9, a &&& 3#9 = 0#9 → a ≠ 0x100#9 → (regForm a).isSome = true := by
  decide

set_option maxRecDepth 100000 in
/-- Every RD.SEG k is found by its offset (30 R78). -/
theorem regForm_seg : ∀ k : Fin 41, regForm (descriptor false (segOffset k)) = some .rdSeg := by
  decide

set_option maxRecDepth 100000 in
/-- Every read of a reserved offset is RD.RSVD (30 R78). -/
theorem regForm_reserved :
    ∀ off : Byte, reservedOffset off = true → regForm (descriptor false off) = some .rdRsvd := by
  decide

set_option maxRecDepth 100000 in
/-- Every write to a read-only or reserved offset is WR.IGN (30 R78). -/
theorem regForm_ignored :
    ∀ off : Byte, ignoredOffset off = true → regForm (descriptor true off) = some .wrIgn := by
  decide

/-- The entry number of SEG[k]'s offset is k (30 R78). -/
theorem segIndex_segOffset : ∀ k : Fin 41, segIndex (segOffset k) = k := by
  decide

/-- A SEG entry's offset is a multiple of 4 (10 R34). -/
theorem alignedOffset_segOffset : ∀ k : Fin 41, alignedOffset (segOffset k) = true := by
  decide

/-- An access of the right shape decodes as its content says (20 R51). -/
theorem checkShape_admitted {off : Byte} (h : alignedOffset off = true) (r : Except Reject Instr) :
    checkShape .b32 off r = r := by
  simp [checkShape, h]

/-- What passes the check of shape has the right one (20 R51, R52). -/
theorem checkShape_ok {sz : AccessSize} {off : Byte} {r : Except Reject Instr} {i : Instr}
    (h : checkShape sz off r = .ok i) : sz = .b32 ∧ alignedOffset off = true ∧ r = .ok i := by
  unfold checkShape at h
  by_cases h1 : sz = .b32
  · by_cases h2 : alignedOffset off = true
    · simp [h1, h2] at h
      exact ⟨h1, h2, h⟩
    · simp [h1, h2] at h
  · simp [h1] at h

/-- A 32-bit write at offset 0x00 is a command word (30 R70). -/
theorem decode_command (w : Word) : decode (.write .b32 0#8 w) = decodeCommand w := by
  simp [decode, checkShape, alignedOffset]

/-- The offset of a descriptor is the access's (30 R77). -/
@[simp] theorem descriptorOffset_descriptor (isWrite : Bool) (off : Byte) :
    descriptorOffset (descriptor isWrite off) = off := by
  apply BitVec.eq_of_getLsbD_eq
  intro i hi
  have h := BitVec.getLsbD_append (x := BitVec.ofBool isWrite) (y := off) (i := i)
  simp only [hi, if_true] at h
  simpa [descriptorOffset, descriptor, hi] using h

/-- A command word has the fields it was made of, and no others (30 R71). -/
theorem commandWord_fields (op : BitVec 4) (p : Bool) :
    cmdOp (commandWord op p) = op ∧ cmdZ1 (commandWord op p) = 0#4 ∧ cmdP (commandWord op p) = p ∧
      cmdZ2 (commandWord op p) = 0#23 := by
  revert op
  cases p <;> decide

/-- A command word is made of its fields (30 R71). -/
theorem eq_commandWord (w : Word) (h1 : cmdZ1 w = 0#4) (h2 : cmdZ2 w = 0#23) : w = commandWord (cmdOp w) (cmdP w) := by
  apply BitVec.eq_of_getLsbD_eq
  intro i hi
  have a1 := fun j => congrArg (fun x => x.getLsbD j) h1
  have a2 := fun j => congrArg (fun x => x.getLsbD j) h2
  simp only [cmdZ1, cmdZ2, BitVec.getLsbD_extractLsb', BitVec.getLsbD_zero] at a1 a2
  simp only [commandWord, cmdOp, cmdP, BitVec.getLsbD_append, BitVec.getLsbD_zero, BitVec.getLsbD_extractLsb']
  by_cases h4 : i < 4
  · simp [h4]
  by_cases h8 : i < 8
  · have := a1 (i - 4)
    have e : 4 + (i - 4) = i := by omega
    simp [e, show i - 4 < 4 by omega] at this
    simp [h4, this, show i - 4 < 4 by omega]
  by_cases h9 : i < 9
  · have e : i = 8 := by omega
    subst e
    simp
  · have := a2 (i - 9)
    have e : 9 + (i - 9) = i := by omega
    simp [e, show i - 9 < 23 by omega] at this
    simp [h4, this, show ¬ i - 4 < 4 by omega, show ¬ i - 4 - 4 < 1 by omega]

end Sys2Proof
end

