-- ==== Sys2Proof/Laws/State.lean ====
section
/-! SUPPORT. One lemma per field per update of the state, so that no proof unfolds an update. -/

namespace Sys2Proof.Machine.State

variable (s : State)

@[simp] theorem respond_cnt (r : Response) : (s.respond r).cnt = s.cnt := rfl
@[simp] theorem respond_instant (r : Response) : (s.respond r).instant = s.instant := rfl
@[simp] theorem respond_act (r : Response) : (s.respond r).act = s.act := rfl
@[simp] theorem respond_endReason (r : Response) : (s.respond r).endReason = s.endReason := rfl
@[simp] theorem respond_ovr (r : Response) : (s.respond r).ovr = s.ovr := rfl
@[simp] theorem respond_ill (r : Response) : (s.respond r).ill = s.ill := rfl
@[simp] theorem respond_outcome (r : Response) : (s.respond r).outcome = s.outcome := rfl
@[simp] theorem respond_segcount (r : Response) : (s.respond r).segcount = s.segcount := rfl
@[simp] theorem respond_arg (r : Response) : (s.respond r).arg = s.arg := rfl
@[simp] theorem respond_breakThr (r : Response) : (s.respond r).breakThr = s.breakThr := rfl
@[simp] theorem respond_bitThr (r : Response) : (s.respond r).bitThr = s.bitThr := rfl
@[simp] theorem respond_dir (r : Response) : (s.respond r).dir = s.dir := rfl
@[simp] theorem respond_out (r : Response) : (s.respond r).out = s.out := rfl
@[simp] theorem respond_raw (r : Response) : (s.respond r).raw = s.raw := rfl
@[simp] theorem respond_cksRecv (r : Response) : (s.respond r).cksRecv = s.cksRecv := rfl
@[simp] theorem respond_cksCalc (r : Response) : (s.respond r).cksCalc = s.cksCalc := rfl
@[simp] theorem respond_hum (r : Response) : (s.respond r).hum = s.hum := rfl
@[simp] theorem respond_temp (r : Response) : (s.respond r).temp = s.temp := rfl
@[simp] theorem respond_seg (r : Response) : (s.respond r).seg = s.seg := rfl
@[simp] theorem respond_sstart (r : Response) : (s.respond r).sstart = s.sstart := rfl
@[simp] theorem respond_dacc (r : Response) : (s.respond r).dacc = s.dacc := rfl
@[simp] theorem respond_dlast (r : Response) : (s.respond r).dlast = s.dlast := rfl
@[simp] theorem respond_resetAsserted (r : Response) : (s.respond r).resetAsserted = s.resetAsserted := rfl
@[simp] theorem respond_env (r : Response) : (s.respond r).env = s.env := rfl
@[simp] theorem respond_bus (r : Response) : (s.respond r).bus = r := rfl
@[simp] theorem respond_epoch (r : Response) : (s.respond r).epoch = s.epoch := rfl
@[simp] theorem respond_errReads (r : Response) : (s.respond r).errReads = s.errReads := rfl
@[simp] theorem respond_agenda (r : Response) : (s.respond r).agenda = s.agenda := rfl

@[simp] theorem raiseOvr_cnt : s.raiseOvr.cnt = s.cnt := rfl
@[simp] theorem raiseOvr_instant : s.raiseOvr.instant = s.instant := rfl
@[simp] theorem raiseOvr_act : s.raiseOvr.act = s.act := rfl
@[simp] theorem raiseOvr_endReason : s.raiseOvr.endReason = s.endReason := rfl
@[simp] theorem raiseOvr_ovr : s.raiseOvr.ovr = true := rfl
@[simp] theorem raiseOvr_ill : s.raiseOvr.ill = s.ill := rfl
@[simp] theorem raiseOvr_outcome : s.raiseOvr.outcome = s.outcome := rfl
@[simp] theorem raiseOvr_segcount : s.raiseOvr.segcount = s.segcount := rfl
@[simp] theorem raiseOvr_arg : s.raiseOvr.arg = s.arg := rfl
@[simp] theorem raiseOvr_breakThr : s.raiseOvr.breakThr = s.breakThr := rfl
@[simp] theorem raiseOvr_bitThr : s.raiseOvr.bitThr = s.bitThr := rfl
@[simp] theorem raiseOvr_dir : s.raiseOvr.dir = s.dir := rfl
@[simp] theorem raiseOvr_out : s.raiseOvr.out = s.out := rfl
@[simp] theorem raiseOvr_raw : s.raiseOvr.raw = s.raw := rfl
@[simp] theorem raiseOvr_cksRecv : s.raiseOvr.cksRecv = s.cksRecv := rfl
@[simp] theorem raiseOvr_cksCalc : s.raiseOvr.cksCalc = s.cksCalc := rfl
@[simp] theorem raiseOvr_hum : s.raiseOvr.hum = s.hum := rfl
@[simp] theorem raiseOvr_temp : s.raiseOvr.temp = s.temp := rfl
@[simp] theorem raiseOvr_seg : s.raiseOvr.seg = s.seg := rfl
@[simp] theorem raiseOvr_sstart : s.raiseOvr.sstart = s.sstart := rfl
@[simp] theorem raiseOvr_dacc : s.raiseOvr.dacc = s.dacc := rfl
@[simp] theorem raiseOvr_dlast : s.raiseOvr.dlast = s.dlast := rfl
@[simp] theorem raiseOvr_resetAsserted : s.raiseOvr.resetAsserted = s.resetAsserted := rfl
@[simp] theorem raiseOvr_env : s.raiseOvr.env = s.env := rfl
@[simp] theorem raiseOvr_bus : s.raiseOvr.bus = s.bus := rfl
@[simp] theorem raiseOvr_epoch : s.raiseOvr.epoch = s.epoch := rfl
@[simp] theorem raiseOvr_errReads : s.raiseOvr.errReads = s.errReads := rfl
@[simp] theorem raiseOvr_agenda : s.raiseOvr.agenda = s.agenda := rfl

@[simp] theorem raiseIll_cnt : s.raiseIll.cnt = s.cnt := rfl
@[simp] theorem raiseIll_instant : s.raiseIll.instant = s.instant := rfl
@[simp] theorem raiseIll_act : s.raiseIll.act = s.act := rfl
@[simp] theorem raiseIll_endReason : s.raiseIll.endReason = s.endReason := rfl
@[simp] theorem raiseIll_ovr : s.raiseIll.ovr = s.ovr := rfl
@[simp] theorem raiseIll_ill : s.raiseIll.ill = true := rfl
@[simp] theorem raiseIll_outcome : s.raiseIll.outcome = s.outcome := rfl
@[simp] theorem raiseIll_segcount : s.raiseIll.segcount = s.segcount := rfl
@[simp] theorem raiseIll_arg : s.raiseIll.arg = s.arg := rfl
@[simp] theorem raiseIll_breakThr : s.raiseIll.breakThr = s.breakThr := rfl
@[simp] theorem raiseIll_bitThr : s.raiseIll.bitThr = s.bitThr := rfl
@[simp] theorem raiseIll_dir : s.raiseIll.dir = s.dir := rfl
@[simp] theorem raiseIll_out : s.raiseIll.out = s.out := rfl
@[simp] theorem raiseIll_raw : s.raiseIll.raw = s.raw := rfl
@[simp] theorem raiseIll_cksRecv : s.raiseIll.cksRecv = s.cksRecv := rfl
@[simp] theorem raiseIll_cksCalc : s.raiseIll.cksCalc = s.cksCalc := rfl
@[simp] theorem raiseIll_hum : s.raiseIll.hum = s.hum := rfl
@[simp] theorem raiseIll_temp : s.raiseIll.temp = s.temp := rfl
@[simp] theorem raiseIll_seg : s.raiseIll.seg = s.seg := rfl
@[simp] theorem raiseIll_sstart : s.raiseIll.sstart = s.sstart := rfl
@[simp] theorem raiseIll_dacc : s.raiseIll.dacc = s.dacc := rfl
@[simp] theorem raiseIll_dlast : s.raiseIll.dlast = s.dlast := rfl
@[simp] theorem raiseIll_resetAsserted : s.raiseIll.resetAsserted = s.resetAsserted := rfl
@[simp] theorem raiseIll_env : s.raiseIll.env = s.env := rfl
@[simp] theorem raiseIll_bus : s.raiseIll.bus = s.bus := rfl
@[simp] theorem raiseIll_epoch : s.raiseIll.epoch = s.epoch := rfl
@[simp] theorem raiseIll_errReads : s.raiseIll.errReads = s.errReads := rfl
@[simp] theorem raiseIll_agenda : s.raiseIll.agenda = s.agenda := rfl

@[simp] theorem clearErrors_cnt : s.clearErrors.cnt = s.cnt := rfl
@[simp] theorem clearErrors_instant : s.clearErrors.instant = s.instant := rfl
@[simp] theorem clearErrors_act : s.clearErrors.act = s.act := rfl
@[simp] theorem clearErrors_endReason : s.clearErrors.endReason = s.endReason := rfl
@[simp] theorem clearErrors_ovr : s.clearErrors.ovr = false := rfl
@[simp] theorem clearErrors_ill : s.clearErrors.ill = false := rfl
@[simp] theorem clearErrors_outcome : s.clearErrors.outcome = s.outcome := rfl
@[simp] theorem clearErrors_segcount : s.clearErrors.segcount = s.segcount := rfl
@[simp] theorem clearErrors_arg : s.clearErrors.arg = s.arg := rfl
@[simp] theorem clearErrors_breakThr : s.clearErrors.breakThr = s.breakThr := rfl
@[simp] theorem clearErrors_bitThr : s.clearErrors.bitThr = s.bitThr := rfl
@[simp] theorem clearErrors_dir : s.clearErrors.dir = s.dir := rfl
@[simp] theorem clearErrors_out : s.clearErrors.out = s.out := rfl
@[simp] theorem clearErrors_raw : s.clearErrors.raw = s.raw := rfl
@[simp] theorem clearErrors_cksRecv : s.clearErrors.cksRecv = s.cksRecv := rfl
@[simp] theorem clearErrors_cksCalc : s.clearErrors.cksCalc = s.cksCalc := rfl
@[simp] theorem clearErrors_hum : s.clearErrors.hum = s.hum := rfl
@[simp] theorem clearErrors_temp : s.clearErrors.temp = s.temp := rfl
@[simp] theorem clearErrors_seg : s.clearErrors.seg = s.seg := rfl
@[simp] theorem clearErrors_sstart : s.clearErrors.sstart = s.sstart := rfl
@[simp] theorem clearErrors_dacc : s.clearErrors.dacc = s.dacc := rfl
@[simp] theorem clearErrors_dlast : s.clearErrors.dlast = s.dlast := rfl
@[simp] theorem clearErrors_resetAsserted : s.clearErrors.resetAsserted = s.resetAsserted := rfl
@[simp] theorem clearErrors_env : s.clearErrors.env = s.env := rfl
@[simp] theorem clearErrors_bus : s.clearErrors.bus = s.bus := rfl
@[simp] theorem clearErrors_epoch : s.clearErrors.epoch = s.epoch := rfl
@[simp] theorem clearErrors_errReads : s.clearErrors.errReads = s.errReads := rfl
@[simp] theorem clearErrors_agenda : s.clearErrors.agenda = s.agenda := rfl

@[simp] theorem stopSample_cnt (r : EndReason) : (s.stopSample r).cnt = s.cnt := rfl
@[simp] theorem stopSample_instant (r : EndReason) : (s.stopSample r).instant = s.instant := rfl
@[simp] theorem stopSample_act (r : EndReason) : (s.stopSample r).act = .idle := rfl
@[simp] theorem stopSample_endReason (r : EndReason) : (s.stopSample r).endReason = r := rfl
@[simp] theorem stopSample_ovr (r : EndReason) : (s.stopSample r).ovr = s.ovr := rfl
@[simp] theorem stopSample_ill (r : EndReason) : (s.stopSample r).ill = s.ill := rfl
@[simp] theorem stopSample_outcome (r : EndReason) : (s.stopSample r).outcome = s.outcome := rfl
@[simp] theorem stopSample_segcount (r : EndReason) : (s.stopSample r).segcount = s.segcount := rfl
@[simp] theorem stopSample_arg (r : EndReason) : (s.stopSample r).arg = s.arg := rfl
@[simp] theorem stopSample_breakThr (r : EndReason) : (s.stopSample r).breakThr = s.breakThr := rfl
@[simp] theorem stopSample_bitThr (r : EndReason) : (s.stopSample r).bitThr = s.bitThr := rfl
@[simp] theorem stopSample_dir (r : EndReason) : (s.stopSample r).dir = s.dir := rfl
@[simp] theorem stopSample_out (r : EndReason) : (s.stopSample r).out = s.out := rfl
@[simp] theorem stopSample_raw (r : EndReason) : (s.stopSample r).raw = s.raw := rfl
@[simp] theorem stopSample_cksRecv (r : EndReason) : (s.stopSample r).cksRecv = s.cksRecv := rfl
@[simp] theorem stopSample_cksCalc (r : EndReason) : (s.stopSample r).cksCalc = s.cksCalc := rfl
@[simp] theorem stopSample_hum (r : EndReason) : (s.stopSample r).hum = s.hum := rfl
@[simp] theorem stopSample_temp (r : EndReason) : (s.stopSample r).temp = s.temp := rfl
@[simp] theorem stopSample_seg (r : EndReason) : (s.stopSample r).seg = s.seg := rfl
@[simp] theorem stopSample_sstart (r : EndReason) : (s.stopSample r).sstart = s.sstart := rfl
@[simp] theorem stopSample_dacc (r : EndReason) : (s.stopSample r).dacc = s.dacc := rfl
@[simp] theorem stopSample_dlast (r : EndReason) : (s.stopSample r).dlast = s.dlast := rfl
@[simp] theorem stopSample_resetAsserted (r : EndReason) : (s.stopSample r).resetAsserted = s.resetAsserted := rfl
@[simp] theorem stopSample_env (r : EndReason) : (s.stopSample r).env = s.env := rfl
@[simp] theorem stopSample_bus (r : EndReason) : (s.stopSample r).bus = s.bus := rfl
@[simp] theorem stopSample_epoch (r : EndReason) : (s.stopSample r).epoch = s.epoch := rfl
@[simp] theorem stopSample_errReads (r : EndReason) : (s.stopSample r).errReads = s.errReads := rfl
@[simp] theorem stopSample_agenda (r : EndReason) : (s.stopSample r).agenda = s.agenda := rfl

@[simp] theorem setOutcome_cnt (o : DecodeOutcome) : (s.setOutcome o).cnt = s.cnt := rfl
@[simp] theorem setOutcome_instant (o : DecodeOutcome) : (s.setOutcome o).instant = s.instant := rfl
@[simp] theorem setOutcome_act (o : DecodeOutcome) : (s.setOutcome o).act = s.act := rfl
@[simp] theorem setOutcome_endReason (o : DecodeOutcome) : (s.setOutcome o).endReason = s.endReason := rfl
@[simp] theorem setOutcome_ovr (o : DecodeOutcome) : (s.setOutcome o).ovr = s.ovr := rfl
@[simp] theorem setOutcome_ill (o : DecodeOutcome) : (s.setOutcome o).ill = s.ill := rfl
@[simp] theorem setOutcome_outcome (o : DecodeOutcome) : (s.setOutcome o).outcome = o := rfl
@[simp] theorem setOutcome_segcount (o : DecodeOutcome) : (s.setOutcome o).segcount = s.segcount := rfl
@[simp] theorem setOutcome_arg (o : DecodeOutcome) : (s.setOutcome o).arg = s.arg := rfl
@[simp] theorem setOutcome_breakThr (o : DecodeOutcome) : (s.setOutcome o).breakThr = s.breakThr := rfl
@[simp] theorem setOutcome_bitThr (o : DecodeOutcome) : (s.setOutcome o).bitThr = s.bitThr := rfl
@[simp] theorem setOutcome_dir (o : DecodeOutcome) : (s.setOutcome o).dir = s.dir := rfl
@[simp] theorem setOutcome_out (o : DecodeOutcome) : (s.setOutcome o).out = s.out := rfl
@[simp] theorem setOutcome_raw (o : DecodeOutcome) : (s.setOutcome o).raw = s.raw := rfl
@[simp] theorem setOutcome_cksRecv (o : DecodeOutcome) : (s.setOutcome o).cksRecv = s.cksRecv := rfl
@[simp] theorem setOutcome_cksCalc (o : DecodeOutcome) : (s.setOutcome o).cksCalc = s.cksCalc := rfl
@[simp] theorem setOutcome_hum (o : DecodeOutcome) : (s.setOutcome o).hum = s.hum := rfl
@[simp] theorem setOutcome_temp (o : DecodeOutcome) : (s.setOutcome o).temp = s.temp := rfl
@[simp] theorem setOutcome_seg (o : DecodeOutcome) : (s.setOutcome o).seg = s.seg := rfl
@[simp] theorem setOutcome_sstart (o : DecodeOutcome) : (s.setOutcome o).sstart = s.sstart := rfl
@[simp] theorem setOutcome_dacc (o : DecodeOutcome) : (s.setOutcome o).dacc = s.dacc := rfl
@[simp] theorem setOutcome_dlast (o : DecodeOutcome) : (s.setOutcome o).dlast = s.dlast := rfl
@[simp] theorem setOutcome_resetAsserted (o : DecodeOutcome) : (s.setOutcome o).resetAsserted = s.resetAsserted := rfl
@[simp] theorem setOutcome_env (o : DecodeOutcome) : (s.setOutcome o).env = s.env := rfl
@[simp] theorem setOutcome_bus (o : DecodeOutcome) : (s.setOutcome o).bus = s.bus := rfl
@[simp] theorem setOutcome_epoch (o : DecodeOutcome) : (s.setOutcome o).epoch = s.epoch := rfl
@[simp] theorem setOutcome_errReads (o : DecodeOutcome) : (s.setOutcome o).errReads = s.errReads := rfl
@[simp] theorem setOutcome_agenda (o : DecodeOutcome) : (s.setOutcome o).agenda = s.agenda := rfl

@[simp] theorem advance_cnt (e : Level) : (s.advance e).cnt = s.cnt + 1#32 := rfl
@[simp] theorem advance_instant (e : Level) : (s.advance e).instant = s.instant + 1 := rfl
@[simp] theorem advance_act (e : Level) : (s.advance e).act = s.act := rfl
@[simp] theorem advance_endReason (e : Level) : (s.advance e).endReason = s.endReason := rfl
@[simp] theorem advance_ovr (e : Level) : (s.advance e).ovr = s.ovr := rfl
@[simp] theorem advance_ill (e : Level) : (s.advance e).ill = s.ill := rfl
@[simp] theorem advance_outcome (e : Level) : (s.advance e).outcome = s.outcome := rfl
@[simp] theorem advance_segcount (e : Level) : (s.advance e).segcount = s.segcount := rfl
@[simp] theorem advance_arg (e : Level) : (s.advance e).arg = s.arg := rfl
@[simp] theorem advance_breakThr (e : Level) : (s.advance e).breakThr = s.breakThr := rfl
@[simp] theorem advance_bitThr (e : Level) : (s.advance e).bitThr = s.bitThr := rfl
@[simp] theorem advance_dir (e : Level) : (s.advance e).dir = s.dir := rfl
@[simp] theorem advance_out (e : Level) : (s.advance e).out = s.out := rfl
@[simp] theorem advance_raw (e : Level) : (s.advance e).raw = s.raw := rfl
@[simp] theorem advance_cksRecv (e : Level) : (s.advance e).cksRecv = s.cksRecv := rfl
@[simp] theorem advance_cksCalc (e : Level) : (s.advance e).cksCalc = s.cksCalc := rfl
@[simp] theorem advance_hum (e : Level) : (s.advance e).hum = s.hum := rfl
@[simp] theorem advance_temp (e : Level) : (s.advance e).temp = s.temp := rfl
@[simp] theorem advance_seg (e : Level) : (s.advance e).seg = s.seg := rfl
@[simp] theorem advance_sstart (e : Level) : (s.advance e).sstart = s.sstart := rfl
@[simp] theorem advance_dacc (e : Level) : (s.advance e).dacc = s.dacc := rfl
@[simp] theorem advance_dlast (e : Level) : (s.advance e).dlast = s.dlast := rfl
@[simp] theorem advance_resetAsserted (e : Level) : (s.advance e).resetAsserted = s.resetAsserted := rfl
@[simp] theorem advance_env (e : Level) : (s.advance e).env = e := rfl
@[simp] theorem advance_bus (e : Level) : (s.advance e).bus = s.bus := rfl
@[simp] theorem advance_epoch (e : Level) : (s.advance e).epoch = s.epoch := rfl
@[simp] theorem advance_errReads (e : Level) : (s.advance e).errReads = s.errReads := rfl
@[simp] theorem advance_agenda (e : Level) : (s.advance e).agenda = s.agenda := rfl

@[simp] theorem assertReset_cnt : s.assertReset.cnt = s.cnt := rfl
@[simp] theorem assertReset_instant : s.assertReset.instant = s.instant := rfl
@[simp] theorem assertReset_act : s.assertReset.act = s.act := rfl
@[simp] theorem assertReset_endReason : s.assertReset.endReason = s.endReason := rfl
@[simp] theorem assertReset_ovr : s.assertReset.ovr = s.ovr := rfl
@[simp] theorem assertReset_ill : s.assertReset.ill = s.ill := rfl
@[simp] theorem assertReset_outcome : s.assertReset.outcome = s.outcome := rfl
@[simp] theorem assertReset_segcount : s.assertReset.segcount = s.segcount := rfl
@[simp] theorem assertReset_arg : s.assertReset.arg = s.arg := rfl
@[simp] theorem assertReset_breakThr : s.assertReset.breakThr = s.breakThr := rfl
@[simp] theorem assertReset_bitThr : s.assertReset.bitThr = s.bitThr := rfl
@[simp] theorem assertReset_dir : s.assertReset.dir = s.dir := rfl
@[simp] theorem assertReset_out : s.assertReset.out = s.out := rfl
@[simp] theorem assertReset_raw : s.assertReset.raw = s.raw := rfl
@[simp] theorem assertReset_cksRecv : s.assertReset.cksRecv = s.cksRecv := rfl
@[simp] theorem assertReset_cksCalc : s.assertReset.cksCalc = s.cksCalc := rfl
@[simp] theorem assertReset_hum : s.assertReset.hum = s.hum := rfl
@[simp] theorem assertReset_temp : s.assertReset.temp = s.temp := rfl
@[simp] theorem assertReset_seg : s.assertReset.seg = s.seg := rfl
@[simp] theorem assertReset_sstart : s.assertReset.sstart = s.sstart := rfl
@[simp] theorem assertReset_dacc : s.assertReset.dacc = s.dacc := rfl
@[simp] theorem assertReset_dlast : s.assertReset.dlast = s.dlast := rfl
@[simp] theorem assertReset_resetAsserted : s.assertReset.resetAsserted = true := rfl
@[simp] theorem assertReset_env : s.assertReset.env = s.env := rfl
@[simp] theorem assertReset_bus : s.assertReset.bus = s.bus := rfl
@[simp] theorem assertReset_epoch : s.assertReset.epoch = s.epoch := rfl
@[simp] theorem assertReset_errReads : s.assertReset.errReads = s.errReads := rfl
@[simp] theorem assertReset_agenda : s.assertReset.agenda = s.agenda := rfl

@[simp] theorem schedule_cnt (ev : Event) : (s.schedule ev).cnt = s.cnt := rfl
@[simp] theorem schedule_instant (ev : Event) : (s.schedule ev).instant = s.instant := rfl
@[simp] theorem schedule_act (ev : Event) : (s.schedule ev).act = s.act := rfl
@[simp] theorem schedule_endReason (ev : Event) : (s.schedule ev).endReason = s.endReason := rfl
@[simp] theorem schedule_ovr (ev : Event) : (s.schedule ev).ovr = s.ovr := rfl
@[simp] theorem schedule_ill (ev : Event) : (s.schedule ev).ill = s.ill := rfl
@[simp] theorem schedule_outcome (ev : Event) : (s.schedule ev).outcome = s.outcome := rfl
@[simp] theorem schedule_segcount (ev : Event) : (s.schedule ev).segcount = s.segcount := rfl
@[simp] theorem schedule_arg (ev : Event) : (s.schedule ev).arg = s.arg := rfl
@[simp] theorem schedule_breakThr (ev : Event) : (s.schedule ev).breakThr = s.breakThr := rfl
@[simp] theorem schedule_bitThr (ev : Event) : (s.schedule ev).bitThr = s.bitThr := rfl
@[simp] theorem schedule_dir (ev : Event) : (s.schedule ev).dir = s.dir := rfl
@[simp] theorem schedule_out (ev : Event) : (s.schedule ev).out = s.out := rfl
@[simp] theorem schedule_raw (ev : Event) : (s.schedule ev).raw = s.raw := rfl
@[simp] theorem schedule_cksRecv (ev : Event) : (s.schedule ev).cksRecv = s.cksRecv := rfl
@[simp] theorem schedule_cksCalc (ev : Event) : (s.schedule ev).cksCalc = s.cksCalc := rfl
@[simp] theorem schedule_hum (ev : Event) : (s.schedule ev).hum = s.hum := rfl
@[simp] theorem schedule_temp (ev : Event) : (s.schedule ev).temp = s.temp := rfl
@[simp] theorem schedule_seg (ev : Event) : (s.schedule ev).seg = s.seg := rfl
@[simp] theorem schedule_sstart (ev : Event) : (s.schedule ev).sstart = s.sstart := rfl
@[simp] theorem schedule_dacc (ev : Event) : (s.schedule ev).dacc = s.dacc := rfl
@[simp] theorem schedule_dlast (ev : Event) : (s.schedule ev).dlast = s.dlast := rfl
@[simp] theorem schedule_resetAsserted (ev : Event) : (s.schedule ev).resetAsserted = s.resetAsserted := rfl
@[simp] theorem schedule_env (ev : Event) : (s.schedule ev).env = s.env := rfl
@[simp] theorem schedule_bus (ev : Event) : (s.schedule ev).bus = s.bus := rfl
@[simp] theorem schedule_epoch (ev : Event) : (s.schedule ev).epoch = s.epoch := rfl
@[simp] theorem schedule_errReads (ev : Event) : (s.schedule ev).errReads = s.errReads := rfl
@[simp] theorem schedule_agenda (ev : Event) : (s.schedule ev).agenda = ev :: s.agenda := rfl

@[simp] theorem startDelay_cnt : s.startDelay.cnt = s.cnt := rfl
@[simp] theorem startDelay_instant : s.startDelay.instant = s.instant := rfl
@[simp] theorem startDelay_act : s.startDelay.act = .delay := rfl
@[simp] theorem startDelay_endReason : s.startDelay.endReason = s.endReason := rfl
@[simp] theorem startDelay_ovr : s.startDelay.ovr = s.ovr := rfl
@[simp] theorem startDelay_ill : s.startDelay.ill = s.ill := rfl
@[simp] theorem startDelay_outcome : s.startDelay.outcome = s.outcome := rfl
@[simp] theorem startDelay_segcount : s.startDelay.segcount = s.segcount := rfl
@[simp] theorem startDelay_arg : s.startDelay.arg = s.arg := rfl
@[simp] theorem startDelay_breakThr : s.startDelay.breakThr = s.breakThr := rfl
@[simp] theorem startDelay_bitThr : s.startDelay.bitThr = s.bitThr := rfl
@[simp] theorem startDelay_dir : s.startDelay.dir = s.dir := rfl
@[simp] theorem startDelay_out : s.startDelay.out = s.out := rfl
@[simp] theorem startDelay_raw : s.startDelay.raw = s.raw := rfl
@[simp] theorem startDelay_cksRecv : s.startDelay.cksRecv = s.cksRecv := rfl
@[simp] theorem startDelay_cksCalc : s.startDelay.cksCalc = s.cksCalc := rfl
@[simp] theorem startDelay_hum : s.startDelay.hum = s.hum := rfl
@[simp] theorem startDelay_temp : s.startDelay.temp = s.temp := rfl
@[simp] theorem startDelay_seg : s.startDelay.seg = s.seg := rfl
@[simp] theorem startDelay_sstart : s.startDelay.sstart = s.sstart := rfl
@[simp] theorem startDelay_dacc : s.startDelay.dacc = 0#32 := rfl
@[simp] theorem startDelay_dlast : s.startDelay.dlast = s.cnt := rfl
@[simp] theorem startDelay_resetAsserted : s.startDelay.resetAsserted = s.resetAsserted := rfl
@[simp] theorem startDelay_env : s.startDelay.env = s.env := rfl
@[simp] theorem startDelay_bus : s.startDelay.bus = s.bus := rfl
@[simp] theorem startDelay_epoch : s.startDelay.epoch = s.epoch := rfl
@[simp] theorem startDelay_errReads : s.startDelay.errReads = s.errReads := rfl
@[simp] theorem startDelay_agenda : s.startDelay.agenda = s.agenda := rfl

@[simp] theorem startSample_cnt : s.startSample.cnt = s.cnt := rfl
@[simp] theorem startSample_instant : s.startSample.instant = s.instant := rfl
@[simp] theorem startSample_act : s.startSample.act = .waitFall := rfl
@[simp] theorem startSample_endReason : s.startSample.endReason = s.endReason := rfl
@[simp] theorem startSample_ovr : s.startSample.ovr = s.ovr := rfl
@[simp] theorem startSample_ill : s.startSample.ill = s.ill := rfl
@[simp] theorem startSample_outcome : s.startSample.outcome = .none := rfl
@[simp] theorem startSample_segcount : s.startSample.segcount = 0#6 := rfl
@[simp] theorem startSample_arg : s.startSample.arg = s.arg := rfl
@[simp] theorem startSample_breakThr : s.startSample.breakThr = s.breakThr := rfl
@[simp] theorem startSample_bitThr : s.startSample.bitThr = s.bitThr := rfl
@[simp] theorem startSample_dir : s.startSample.dir = s.dir := rfl
@[simp] theorem startSample_out : s.startSample.out = s.out := rfl
@[simp] theorem startSample_raw : s.startSample.raw = s.raw := rfl
@[simp] theorem startSample_cksRecv : s.startSample.cksRecv = s.cksRecv := rfl
@[simp] theorem startSample_cksCalc : s.startSample.cksCalc = s.cksCalc := rfl
@[simp] theorem startSample_hum : s.startSample.hum = s.hum := rfl
@[simp] theorem startSample_temp : s.startSample.temp = s.temp := rfl
@[simp] theorem startSample_seg : s.startSample.seg = s.seg := rfl
@[simp] theorem startSample_sstart : s.startSample.sstart = s.cnt + 1#32 := rfl
@[simp] theorem startSample_dacc : s.startSample.dacc = s.dacc := rfl
@[simp] theorem startSample_dlast : s.startSample.dlast = s.dlast := rfl
@[simp] theorem startSample_resetAsserted : s.startSample.resetAsserted = s.resetAsserted := rfl
@[simp] theorem startSample_env : s.startSample.env = s.env := rfl
@[simp] theorem startSample_bus : s.startSample.bus = s.bus := rfl
@[simp] theorem startSample_epoch : s.startSample.epoch = s.epoch := rfl
@[simp] theorem startSample_errReads : s.startSample.errReads = s.errReads := rfl
@[simp] theorem startSample_agenda : s.startSample.agenda = s.agenda := rfl

@[simp] theorem releaseLine_cnt : s.releaseLine.cnt = s.cnt := rfl
@[simp] theorem releaseLine_instant : s.releaseLine.instant = s.instant := rfl
@[simp] theorem releaseLine_act : s.releaseLine.act = s.act := rfl
@[simp] theorem releaseLine_endReason : s.releaseLine.endReason = s.endReason := rfl
@[simp] theorem releaseLine_ovr : s.releaseLine.ovr = s.ovr := rfl
@[simp] theorem releaseLine_ill : s.releaseLine.ill = s.ill := rfl
@[simp] theorem releaseLine_outcome : s.releaseLine.outcome = s.outcome := rfl
@[simp] theorem releaseLine_segcount : s.releaseLine.segcount = s.segcount := rfl
@[simp] theorem releaseLine_arg : s.releaseLine.arg = s.arg := rfl
@[simp] theorem releaseLine_breakThr : s.releaseLine.breakThr = s.breakThr := rfl
@[simp] theorem releaseLine_bitThr : s.releaseLine.bitThr = s.bitThr := rfl
@[simp] theorem releaseLine_dir : s.releaseLine.dir = .input := rfl
@[simp] theorem releaseLine_out : s.releaseLine.out = s.out := rfl
@[simp] theorem releaseLine_raw : s.releaseLine.raw = s.raw := rfl
@[simp] theorem releaseLine_cksRecv : s.releaseLine.cksRecv = s.cksRecv := rfl
@[simp] theorem releaseLine_cksCalc : s.releaseLine.cksCalc = s.cksCalc := rfl
@[simp] theorem releaseLine_hum : s.releaseLine.hum = s.hum := rfl
@[simp] theorem releaseLine_temp : s.releaseLine.temp = s.temp := rfl
@[simp] theorem releaseLine_seg : s.releaseLine.seg = s.seg := rfl
@[simp] theorem releaseLine_sstart : s.releaseLine.sstart = s.sstart := rfl
@[simp] theorem releaseLine_dacc : s.releaseLine.dacc = s.dacc := rfl
@[simp] theorem releaseLine_dlast : s.releaseLine.dlast = s.dlast := rfl
@[simp] theorem releaseLine_resetAsserted : s.releaseLine.resetAsserted = s.resetAsserted := rfl
@[simp] theorem releaseLine_env : s.releaseLine.env = s.env := rfl
@[simp] theorem releaseLine_bus : s.releaseLine.bus = s.bus := rfl
@[simp] theorem releaseLine_epoch : s.releaseLine.epoch = s.epoch := rfl
@[simp] theorem releaseLine_errReads : s.releaseLine.errReads = s.errReads := rfl
@[simp] theorem releaseLine_agenda : s.releaseLine.agenda = s.agenda := rfl

@[simp] theorem driveLine_cnt (p : Level) : (State.driveLine p s).cnt = s.cnt := rfl
@[simp] theorem driveLine_instant (p : Level) : (State.driveLine p s).instant = s.instant := rfl
@[simp] theorem driveLine_act (p : Level) : (State.driveLine p s).act = s.act := rfl
@[simp] theorem driveLine_endReason (p : Level) : (State.driveLine p s).endReason = s.endReason := rfl
@[simp] theorem driveLine_ovr (p : Level) : (State.driveLine p s).ovr = s.ovr := rfl
@[simp] theorem driveLine_ill (p : Level) : (State.driveLine p s).ill = s.ill := rfl
@[simp] theorem driveLine_outcome (p : Level) : (State.driveLine p s).outcome = s.outcome := rfl
@[simp] theorem driveLine_segcount (p : Level) : (State.driveLine p s).segcount = s.segcount := rfl
@[simp] theorem driveLine_arg (p : Level) : (State.driveLine p s).arg = s.arg := rfl
@[simp] theorem driveLine_breakThr (p : Level) : (State.driveLine p s).breakThr = s.breakThr := rfl
@[simp] theorem driveLine_bitThr (p : Level) : (State.driveLine p s).bitThr = s.bitThr := rfl
@[simp] theorem driveLine_dir (p : Level) : (State.driveLine p s).dir = .output := rfl
@[simp] theorem driveLine_out (p : Level) : (State.driveLine p s).out = p := rfl
@[simp] theorem driveLine_raw (p : Level) : (State.driveLine p s).raw = s.raw := rfl
@[simp] theorem driveLine_cksRecv (p : Level) : (State.driveLine p s).cksRecv = s.cksRecv := rfl
@[simp] theorem driveLine_cksCalc (p : Level) : (State.driveLine p s).cksCalc = s.cksCalc := rfl
@[simp] theorem driveLine_hum (p : Level) : (State.driveLine p s).hum = s.hum := rfl
@[simp] theorem driveLine_temp (p : Level) : (State.driveLine p s).temp = s.temp := rfl
@[simp] theorem driveLine_seg (p : Level) : (State.driveLine p s).seg = s.seg := rfl
@[simp] theorem driveLine_sstart (p : Level) : (State.driveLine p s).sstart = s.sstart := rfl
@[simp] theorem driveLine_dacc (p : Level) : (State.driveLine p s).dacc = s.dacc := rfl
@[simp] theorem driveLine_dlast (p : Level) : (State.driveLine p s).dlast = s.dlast := rfl
@[simp] theorem driveLine_resetAsserted (p : Level) : (State.driveLine p s).resetAsserted = s.resetAsserted := rfl
@[simp] theorem driveLine_env (p : Level) : (State.driveLine p s).env = s.env := rfl
@[simp] theorem driveLine_bus (p : Level) : (State.driveLine p s).bus = s.bus := rfl
@[simp] theorem driveLine_epoch (p : Level) : (State.driveLine p s).epoch = s.epoch := rfl
@[simp] theorem driveLine_errReads (p : Level) : (State.driveLine p s).errReads = s.errReads := rfl
@[simp] theorem driveLine_agenda (p : Level) : (State.driveLine p s).agenda = s.agenda := rfl

@[simp] theorem setLatch_cnt (p : Level) : (State.setLatch p s).cnt = s.cnt := rfl
@[simp] theorem setLatch_instant (p : Level) : (State.setLatch p s).instant = s.instant := rfl
@[simp] theorem setLatch_act (p : Level) : (State.setLatch p s).act = s.act := rfl
@[simp] theorem setLatch_endReason (p : Level) : (State.setLatch p s).endReason = s.endReason := rfl
@[simp] theorem setLatch_ovr (p : Level) : (State.setLatch p s).ovr = s.ovr := rfl
@[simp] theorem setLatch_ill (p : Level) : (State.setLatch p s).ill = s.ill := rfl
@[simp] theorem setLatch_outcome (p : Level) : (State.setLatch p s).outcome = s.outcome := rfl
@[simp] theorem setLatch_segcount (p : Level) : (State.setLatch p s).segcount = s.segcount := rfl
@[simp] theorem setLatch_arg (p : Level) : (State.setLatch p s).arg = s.arg := rfl
@[simp] theorem setLatch_breakThr (p : Level) : (State.setLatch p s).breakThr = s.breakThr := rfl
@[simp] theorem setLatch_bitThr (p : Level) : (State.setLatch p s).bitThr = s.bitThr := rfl
@[simp] theorem setLatch_dir (p : Level) : (State.setLatch p s).dir = s.dir := rfl
@[simp] theorem setLatch_out (p : Level) : (State.setLatch p s).out = p := rfl
@[simp] theorem setLatch_raw (p : Level) : (State.setLatch p s).raw = s.raw := rfl
@[simp] theorem setLatch_cksRecv (p : Level) : (State.setLatch p s).cksRecv = s.cksRecv := rfl
@[simp] theorem setLatch_cksCalc (p : Level) : (State.setLatch p s).cksCalc = s.cksCalc := rfl
@[simp] theorem setLatch_hum (p : Level) : (State.setLatch p s).hum = s.hum := rfl
@[simp] theorem setLatch_temp (p : Level) : (State.setLatch p s).temp = s.temp := rfl
@[simp] theorem setLatch_seg (p : Level) : (State.setLatch p s).seg = s.seg := rfl
@[simp] theorem setLatch_sstart (p : Level) : (State.setLatch p s).sstart = s.sstart := rfl
@[simp] theorem setLatch_dacc (p : Level) : (State.setLatch p s).dacc = s.dacc := rfl
@[simp] theorem setLatch_dlast (p : Level) : (State.setLatch p s).dlast = s.dlast := rfl
@[simp] theorem setLatch_resetAsserted (p : Level) : (State.setLatch p s).resetAsserted = s.resetAsserted := rfl
@[simp] theorem setLatch_env (p : Level) : (State.setLatch p s).env = s.env := rfl
@[simp] theorem setLatch_bus (p : Level) : (State.setLatch p s).bus = s.bus := rfl
@[simp] theorem setLatch_epoch (p : Level) : (State.setLatch p s).epoch = s.epoch := rfl
@[simp] theorem setLatch_errReads (p : Level) : (State.setLatch p s).errReads = s.errReads := rfl
@[simp] theorem setLatch_agenda (p : Level) : (State.setLatch p s).agenda = s.agenda := rfl

@[simp] theorem setArg_cnt (v : Word) : (State.setArg v s).cnt = s.cnt := rfl
@[simp] theorem setArg_instant (v : Word) : (State.setArg v s).instant = s.instant := rfl
@[simp] theorem setArg_act (v : Word) : (State.setArg v s).act = s.act := rfl
@[simp] theorem setArg_endReason (v : Word) : (State.setArg v s).endReason = s.endReason := rfl
@[simp] theorem setArg_ovr (v : Word) : (State.setArg v s).ovr = s.ovr := rfl
@[simp] theorem setArg_ill (v : Word) : (State.setArg v s).ill = s.ill := rfl
@[simp] theorem setArg_outcome (v : Word) : (State.setArg v s).outcome = s.outcome := rfl
@[simp] theorem setArg_segcount (v : Word) : (State.setArg v s).segcount = s.segcount := rfl
@[simp] theorem setArg_arg (v : Word) : (State.setArg v s).arg = v := rfl
@[simp] theorem setArg_breakThr (v : Word) : (State.setArg v s).breakThr = s.breakThr := rfl
@[simp] theorem setArg_bitThr (v : Word) : (State.setArg v s).bitThr = s.bitThr := rfl
@[simp] theorem setArg_dir (v : Word) : (State.setArg v s).dir = s.dir := rfl
@[simp] theorem setArg_out (v : Word) : (State.setArg v s).out = s.out := rfl
@[simp] theorem setArg_raw (v : Word) : (State.setArg v s).raw = s.raw := rfl
@[simp] theorem setArg_cksRecv (v : Word) : (State.setArg v s).cksRecv = s.cksRecv := rfl
@[simp] theorem setArg_cksCalc (v : Word) : (State.setArg v s).cksCalc = s.cksCalc := rfl
@[simp] theorem setArg_hum (v : Word) : (State.setArg v s).hum = s.hum := rfl
@[simp] theorem setArg_temp (v : Word) : (State.setArg v s).temp = s.temp := rfl
@[simp] theorem setArg_seg (v : Word) : (State.setArg v s).seg = s.seg := rfl
@[simp] theorem setArg_sstart (v : Word) : (State.setArg v s).sstart = s.sstart := rfl
@[simp] theorem setArg_dacc (v : Word) : (State.setArg v s).dacc = s.dacc := rfl
@[simp] theorem setArg_dlast (v : Word) : (State.setArg v s).dlast = s.dlast := rfl
@[simp] theorem setArg_resetAsserted (v : Word) : (State.setArg v s).resetAsserted = s.resetAsserted := rfl
@[simp] theorem setArg_env (v : Word) : (State.setArg v s).env = s.env := rfl
@[simp] theorem setArg_bus (v : Word) : (State.setArg v s).bus = s.bus := rfl
@[simp] theorem setArg_epoch (v : Word) : (State.setArg v s).epoch = s.epoch := rfl
@[simp] theorem setArg_errReads (v : Word) : (State.setArg v s).errReads = s.errReads := rfl
@[simp] theorem setArg_agenda (v : Word) : (State.setArg v s).agenda = s.agenda := rfl

@[simp] theorem setBreakThr_cnt (v : Word) : (State.setBreakThr v s).cnt = s.cnt := rfl
@[simp] theorem setBreakThr_instant (v : Word) : (State.setBreakThr v s).instant = s.instant := rfl
@[simp] theorem setBreakThr_act (v : Word) : (State.setBreakThr v s).act = s.act := rfl
@[simp] theorem setBreakThr_endReason (v : Word) : (State.setBreakThr v s).endReason = s.endReason := rfl
@[simp] theorem setBreakThr_ovr (v : Word) : (State.setBreakThr v s).ovr = s.ovr := rfl
@[simp] theorem setBreakThr_ill (v : Word) : (State.setBreakThr v s).ill = s.ill := rfl
@[simp] theorem setBreakThr_outcome (v : Word) : (State.setBreakThr v s).outcome = s.outcome := rfl
@[simp] theorem setBreakThr_segcount (v : Word) : (State.setBreakThr v s).segcount = s.segcount := rfl
@[simp] theorem setBreakThr_arg (v : Word) : (State.setBreakThr v s).arg = s.arg := rfl
@[simp] theorem setBreakThr_breakThr (v : Word) : (State.setBreakThr v s).breakThr = v := rfl
@[simp] theorem setBreakThr_bitThr (v : Word) : (State.setBreakThr v s).bitThr = s.bitThr := rfl
@[simp] theorem setBreakThr_dir (v : Word) : (State.setBreakThr v s).dir = s.dir := rfl
@[simp] theorem setBreakThr_out (v : Word) : (State.setBreakThr v s).out = s.out := rfl
@[simp] theorem setBreakThr_raw (v : Word) : (State.setBreakThr v s).raw = s.raw := rfl
@[simp] theorem setBreakThr_cksRecv (v : Word) : (State.setBreakThr v s).cksRecv = s.cksRecv := rfl
@[simp] theorem setBreakThr_cksCalc (v : Word) : (State.setBreakThr v s).cksCalc = s.cksCalc := rfl
@[simp] theorem setBreakThr_hum (v : Word) : (State.setBreakThr v s).hum = s.hum := rfl
@[simp] theorem setBreakThr_temp (v : Word) : (State.setBreakThr v s).temp = s.temp := rfl
@[simp] theorem setBreakThr_seg (v : Word) : (State.setBreakThr v s).seg = s.seg := rfl
@[simp] theorem setBreakThr_sstart (v : Word) : (State.setBreakThr v s).sstart = s.sstart := rfl
@[simp] theorem setBreakThr_dacc (v : Word) : (State.setBreakThr v s).dacc = s.dacc := rfl
@[simp] theorem setBreakThr_dlast (v : Word) : (State.setBreakThr v s).dlast = s.dlast := rfl
@[simp] theorem setBreakThr_resetAsserted (v : Word) : (State.setBreakThr v s).resetAsserted = s.resetAsserted := rfl
@[simp] theorem setBreakThr_env (v : Word) : (State.setBreakThr v s).env = s.env := rfl
@[simp] theorem setBreakThr_bus (v : Word) : (State.setBreakThr v s).bus = s.bus := rfl
@[simp] theorem setBreakThr_epoch (v : Word) : (State.setBreakThr v s).epoch = s.epoch := rfl
@[simp] theorem setBreakThr_errReads (v : Word) : (State.setBreakThr v s).errReads = s.errReads := rfl
@[simp] theorem setBreakThr_agenda (v : Word) : (State.setBreakThr v s).agenda = s.agenda := rfl

@[simp] theorem setBitThr_cnt (v : Word) : (State.setBitThr v s).cnt = s.cnt := rfl
@[simp] theorem setBitThr_instant (v : Word) : (State.setBitThr v s).instant = s.instant := rfl
@[simp] theorem setBitThr_act (v : Word) : (State.setBitThr v s).act = s.act := rfl
@[simp] theorem setBitThr_endReason (v : Word) : (State.setBitThr v s).endReason = s.endReason := rfl
@[simp] theorem setBitThr_ovr (v : Word) : (State.setBitThr v s).ovr = s.ovr := rfl
@[simp] theorem setBitThr_ill (v : Word) : (State.setBitThr v s).ill = s.ill := rfl
@[simp] theorem setBitThr_outcome (v : Word) : (State.setBitThr v s).outcome = s.outcome := rfl
@[simp] theorem setBitThr_segcount (v : Word) : (State.setBitThr v s).segcount = s.segcount := rfl
@[simp] theorem setBitThr_arg (v : Word) : (State.setBitThr v s).arg = s.arg := rfl
@[simp] theorem setBitThr_breakThr (v : Word) : (State.setBitThr v s).breakThr = s.breakThr := rfl
@[simp] theorem setBitThr_bitThr (v : Word) : (State.setBitThr v s).bitThr = v := rfl
@[simp] theorem setBitThr_dir (v : Word) : (State.setBitThr v s).dir = s.dir := rfl
@[simp] theorem setBitThr_out (v : Word) : (State.setBitThr v s).out = s.out := rfl
@[simp] theorem setBitThr_raw (v : Word) : (State.setBitThr v s).raw = s.raw := rfl
@[simp] theorem setBitThr_cksRecv (v : Word) : (State.setBitThr v s).cksRecv = s.cksRecv := rfl
@[simp] theorem setBitThr_cksCalc (v : Word) : (State.setBitThr v s).cksCalc = s.cksCalc := rfl
@[simp] theorem setBitThr_hum (v : Word) : (State.setBitThr v s).hum = s.hum := rfl
@[simp] theorem setBitThr_temp (v : Word) : (State.setBitThr v s).temp = s.temp := rfl
@[simp] theorem setBitThr_seg (v : Word) : (State.setBitThr v s).seg = s.seg := rfl
@[simp] theorem setBitThr_sstart (v : Word) : (State.setBitThr v s).sstart = s.sstart := rfl
@[simp] theorem setBitThr_dacc (v : Word) : (State.setBitThr v s).dacc = s.dacc := rfl
@[simp] theorem setBitThr_dlast (v : Word) : (State.setBitThr v s).dlast = s.dlast := rfl
@[simp] theorem setBitThr_resetAsserted (v : Word) : (State.setBitThr v s).resetAsserted = s.resetAsserted := rfl
@[simp] theorem setBitThr_env (v : Word) : (State.setBitThr v s).env = s.env := rfl
@[simp] theorem setBitThr_bus (v : Word) : (State.setBitThr v s).bus = s.bus := rfl
@[simp] theorem setBitThr_epoch (v : Word) : (State.setBitThr v s).epoch = s.epoch := rfl
@[simp] theorem setBitThr_errReads (v : Word) : (State.setBitThr v s).errReads = s.errReads := rfl
@[simp] theorem setBitThr_agenda (v : Word) : (State.setBitThr v s).agenda = s.agenda := rfl

@[simp] theorem respond_busy (r : Response) : (s.respond r).busy = s.busy := rfl
@[simp] theorem raiseOvr_busy : s.raiseOvr.busy = s.busy := rfl
@[simp] theorem raiseIll_busy : s.raiseIll.busy = s.busy := rfl
@[simp] theorem advance_busy (e : Level) : (s.advance e).busy = s.busy := rfl

theorem busy_eq_false : s.busy = false ↔ s.act = .idle := by
  cases h : s.act <;> simp [State.busy, h]

theorem busy_eq_true : s.busy = true ↔ s.act ≠ .idle := by
  cases h : s.act <;> simp [State.busy, h]

end Sys2Proof.Machine.State
end

