-- ==== Sys2Proof/Laws/Ops.lean ====
section
/-! SUPPORT. What each shared operation can do, once. -/

namespace Sys2Proof.Machine

theorem guardedWrite_idle {f : State → State} {s : State} (h : s.busy = false) :
    guardedWrite f s = .next ((f s).respond .done) := by
  simp [guardedWrite, h]

theorem guardedWrite_busy {f : State → State} {s : State} (h : s.busy = true) :
    guardedWrite f s = .next (s.raiseOvr.respond .done) := by
  simp [guardedWrite, h]

/-- A guarded write always answers a next state: the write performed, or dropped with OVR. -/
theorem guardedWrite_cases {f : State → State} {s : State} {r : Result} (h : guardedWrite f s = r) :
    (s.busy = false ∧ r = .next ((f s).respond .done)) ∨ (s.busy = true ∧ r = .next (s.raiseOvr.respond .done)) := by
  cases hb : s.busy
  · exact .inl ⟨rfl, by rw [← h, guardedWrite_idle hb]⟩
  · exact .inr ⟨rfl, by rw [← h, guardedWrite_busy hb]⟩

/-- A rejected access answers a next state: BUSERR, OVR or ILL. -/
theorem rejectAccess_cases {r : Reject} {a : Access} {s : State} {q : Result} (h : rejectAccess r a s = q) :
    (r.isBusError = true ∧
      (q = .next { s.respond (.readError (Config.busErrData s.errReads)) with errReads := s.errReads + 1 } ∨
        q = .next (s.respond .writeError))) ∨
    (r.isBusError = false ∧ s.busy = false ∧ q = .next (s.raiseIll.respond .done)) ∨
    (r.isBusError = false ∧ s.busy = true ∧ q = .next (s.raiseOvr.respond .done)) := by
  unfold rejectAccess at h
  cases hr : r.isBusError
  · rw [hr] at h
    rcases guardedWrite_cases (f := State.raiseIll) (s := s) h with ⟨hb, e⟩ | ⟨hb, e⟩
    · exact .inr (.inl ⟨rfl, hb, e⟩)
    · exact .inr (.inr ⟨rfl, hb, e⟩)
  · rw [hr] at h
    refine .inl ⟨rfl, ?_⟩
    cases a
    · exact .inl h.symm
    · exact .inr h.symm

/-- A push below the log's capacity writes one entry and counts it. -/
theorem push_next {d : Word} {s : State} (h : s.segcount.toNat < 41) :
    push d s = .next { s with seg := s.seg.setIfInBounds s.segcount.toNat d, segcount := s.segcount + 1#6 } := by
  simp [push, Config.segCap, h]

/-- What a push that answers a next state did. -/
theorem push_inv {d : Word} {s t : State} (h : push d s = .next t) :
    s.segcount.toNat < 41 ∧
      t = { s with seg := s.seg.setIfInBounds s.segcount.toNat d, segcount := s.segcount + 1#6 } := by
  unfold push at h
  split at h
  · exact ⟨‹_›, by simpa using h.symm⟩
  · cases h

/-- Below the capacity the count goes up by one, as a number. -/
theorem segcount_succ {c : BitVec 6} (h : c.toNat < 41) : (c + 1#6).toNat = c.toNat + 1 := by
  simp only [BitVec.toNat_add, BitVec.toNat_ofNat]
  omega

/-- The end of a segment: one entry more, a new start, and either the next level or, at the 41st entry, FULL. -/
theorem endSegment_inv {a : Act} {s t : State} (h : endSegment a s = .next t) :
    s.segcount.toNat < 41 ∧
      ((s.segcount.toNat = 40 ∧
          t = { s with seg := s.seg.setIfInBounds 40 s.elapsed, segcount := 41#6, sstart := s.cnt,
                       endReason := .full, act := .idle }) ∨
        (s.segcount.toNat < 40 ∧
          t = { s with seg := s.seg.setIfInBounds s.segcount.toNat s.elapsed, segcount := s.segcount + 1#6,
                       sstart := s.cnt, act := a })) := by
  by_cases hc : s.segcount.toNat < 41
  · refine ⟨hc, ?_⟩
    have hs := segcount_succ hc
    simp only [endSegment, push_next hc] at h
    by_cases h40 : s.segcount.toNat = 40
    · refine .inl ⟨h40, ?_⟩
      have : s.segcount = 40#6 := by
        apply BitVec.eq_of_toNat_eq
        simpa using h40
      simp only [this, State.stopSample, Config.segCap] at h
      simpa using h.symm
    · refine .inr ⟨by omega, ?_⟩
      have : ¬ (s.segcount + 1#6).toNat = Config.segCap := by
        rw [hs]
        simp only [Config.segCap]
        omega
      simp only [this, if_false] at h
      simpa using h.symm
  · simp [endSegment, push, Config.segCap, hc] at h

/-- Below the capacity the end of a segment answers a next state. -/
theorem endSegment_next (a : Act) {s : State} (h : s.segcount.toNat < 41) : ∃ t, endSegment a s = .next t := by
  simp [endSegment, push_next h]

/-- A sample without a level change: a break at the threshold, nothing below it. -/
theorem breakCheck_cases (s : State) :
    (s.breakThr ≤ s.elapsed ∧ s.breakCheck = s.stopSample .brk) ∨
      (s.elapsed < s.breakThr ∧ s.breakCheck = s) := by
  by_cases h : s.breakThr ≤ s.elapsed
  · exact .inl ⟨h, by simp [State.breakCheck, h]⟩
  · exact .inr ⟨BitVec.not_le.mp h, by simp [State.breakCheck, h]⟩

end Sys2Proof.Machine
end

