-- ==== Sys2Proof/Laws/PerInstr.lean ====
section
/-! SUPPORT. Statements about every instruction as syntax, one lemma per constructor. -/

namespace Sys2Proof.Laws.AdmittedAccess

/-- A well-formed instruction is an access that the block admits: 32 bits, at a multiple of 4 (30 R70, 20 R51). -/
def Statement (i : Instr) : Prop := i.wellFormed = true → (encode i).admitted = true

/-- A 32-bit write at a multiple of 4 is admitted. -/
theorem admitted_write {off : Byte} {v : Word} (h : alignedOffset off = true) :
    (Access.write .b32 off v).admitted = true := by
  simp [Access.admitted, Access.size, Access.off, h]

theorem nop : Statement .nop := fun _ => rfl
theorem lineIn : Statement .lineIn := fun _ => rfl
theorem lineOut (p : Level) : Statement (.lineOut p) := fun _ => admitted_write rfl
theorem lineSet (p : Level) : Statement (.lineSet p) := fun _ => admitted_write rfl
theorem delay : Statement .delay := fun _ => rfl
theorem sample : Statement .sample := fun _ => rfl
theorem decodeA : Statement .decodeA := fun _ => rfl
theorem decodeB : Statement .decodeB := fun _ => rfl
theorem clrerr : Statement .clrerr := fun _ => rfl
theorem rdCmd : Statement .rdCmd := fun _ => rfl
theorem rdStatus : Statement .rdStatus := fun _ => rfl
theorem rdTicks : Statement .rdTicks := fun _ => rfl
theorem rdArg : Statement .rdArg := fun _ => rfl
theorem wrArg (v : Word) : Statement (.wrArg v) := fun _ => admitted_write rfl
theorem rdBrk : Statement .rdBrk := fun _ => rfl
theorem wrBrk (v : Word) : Statement (.wrBrk v) := fun _ => admitted_write rfl
theorem rdBit : Statement .rdBit := fun _ => rfl
theorem wrBit (v : Word) : Statement (.wrBit v) := fun _ => admitted_write rfl
theorem rdLine : Statement .rdLine := fun _ => rfl
theorem rdRaw : Statement .rdRaw := fun _ => rfl
theorem rdCks : Statement .rdCks := fun _ => rfl
theorem rdHum : Statement .rdHum := fun _ => rfl
theorem rdTemp : Statement .rdTemp := fun _ => rfl
theorem rdSegcap : Statement .rdSegcap := fun _ => rfl
theorem rdSeg (k : Fin 41) : Statement (.rdSeg k) := fun _ => alignedOffset_segOffset k

theorem rdRsvd (off : Byte) : Statement (.rdRsvd off) := fun h => by
  simp only [Instr.wellFormed, reservedOffset, Bool.and_eq_true] at h
  exact h.1

theorem wrIgn (off : Byte) (v : Word) : Statement (.wrIgn off v) := fun h => by
  simp only [Instr.wellFormed, ignoredOffset, Bool.and_eq_true] at h
  exact h.1

end Sys2Proof.Laws.AdmittedAccess
end

