-- ==== Sys2Proof/Laws/Step.lean ====
section
/-! SUPPORT. What a step can do: by the event it takes, and for a tick by the state of the sequencer. -/

namespace Sys2Proof.Machine

theorem nextEvent_nil {s : State} (h : s.agenda = []) : s.nextEvent = (.tick s.nextEnv, s) := by
  simp [State.nextEvent, h]

theorem nextEvent_cons {s : State} {ev : Event} {rest : List Event} (h : s.agenda = ev :: rest) :
    s.nextEvent = (ev, { s with agenda := rest }) := by
  simp [State.nextEvent, h]

theorem step_nil {s : State} (h : s.agenda = []) : step s = tick s.nextEnv s := by
  simp [step, nextEvent_nil h, perform]

theorem step_cons {s : State} {ev : Event} {rest : List Event} (h : s.agenda = ev :: rest) :
    step s = perform ev { s with agenda := rest } := by
  simp [step, nextEvent_cons h]

/-- The state without its next event differs in the agenda alone. -/
theorem nextEvent_state (s : State) : ∃ rest, s.nextEvent.2 = { s with agenda := rest } := by
  cases h : s.agenda
  · exact ⟨s.agenda, by rw [nextEvent_nil h]⟩
  · exact ⟨_, by rw [nextEvent_cons h]⟩

theorem performAccess_ok {a : Access} {i : Instr} {s : State} (hr : s.resetAsserted = false) (h : decode a = .ok i) :
    performAccess a s = exec i s := by
  simp [performAccess, hr, h]

theorem performAccess_error {a : Access} {r : Reject} {s : State} (hr : s.resetAsserted = false)
    (h : decode a = .error r) : performAccess a s = rejectAccess r a s := by
  simp [performAccess, hr, h]

theorem tick_run {e : Level} {s : State} (h : s.resetAsserted = false) : tick e s = sequencerStep (s.advance e) := by
  simp [tick, h]

theorem tick_reset {e : Level} {s : State} (h : s.resetAsserted = true) : tick e s = .next { s with env := e } := by
  simp [tick, h]

/-! The sequencer's step for each ACT (20 R58). -/

theorem sequencerStep_idle {u : State} (h : u.act = .idle) : sequencerStep u = .next u := by
  simp [sequencerStep, h]

theorem sequencerStep_delay {u : State} (h : u.act = .delay) : sequencerStep u = .next u.delayStep := by
  simp [sequencerStep, h]

theorem sequencerStep_waitFall {u : State} (h : u.act = .waitFall) : sequencerStep u = .next u.waitFallStep := by
  simp [sequencerStep, h]

theorem sequencerStep_low {u : State} (h : u.act = .low) : sequencerStep u = lowStep u := by
  simp [sequencerStep, h]

theorem sequencerStep_high {u : State} (h : u.act = .high) : sequencerStep u = highStep u := by
  simp [sequencerStep, h]

/-- A tick instant with reset not asserted: time advances, then the sequencer takes its step. -/
theorem step_tick {s : State} {e : Level} {rest : List Event} (h : s.agenda = .tick e :: rest)
    (hr : s.resetAsserted = false) : step s = sequencerStep (({ s with agenda := rest } : State).advance e) :=
  (step_cons h).trans (tick_run (s := { s with agenda := rest }) hr)

/-- An access that is an instruction, with reset not asserted. -/
theorem step_exec {s : State} {a : Access} {i : Instr} {rest : List Event} (h : s.agenda = .access a :: rest)
    (hr : s.resetAsserted = false) (hd : decode a = .ok i) : step s = exec i { s with agenda := rest } :=
  (step_cons h).trans (performAccess_ok (s := { s with agenda := rest }) hr hd)

/-- One step of a run, of any machine. -/
theorem run_of_step (M : Host.Core) {s t : M.State} (k : Nat) (h : M.step s = .next t) : M.run (k + 1) s = M.run k t := by
  simp only [Host.Core.run, h]

theorem run_zero (s : State) : run 0 s = .next s := rfl

/-- One step of a run. -/
theorem run_succ {s t : State} (k : Nat) (h : step s = .next t) : run (k + 1) s = run k t :=
  run_of_step core k h

/-- What an access that answers a next state did: it was executed, or it was rejected. -/
theorem performAccess_inv {a : Access} {s t : State} (h : performAccess a s = .next t) :
    s.resetAsserted = false ∧
      ((∃ i, decode a = .ok i ∧ exec i s = .next t) ∨ (∃ r, decode a = .error r ∧ rejectAccess r a s = .next t)) := by
  cases hr : s.resetAsserted
  · refine ⟨rfl, ?_⟩
    cases hd : decode a with
    | ok i => exact .inl ⟨i, rfl, by rwa [performAccess_ok hr hd] at h⟩
    | error r => exact .inr ⟨r, rfl, by rwa [performAccess_error hr hd] at h⟩
  · simp [performAccess, hr] at h

/-- What each guarded write does when it is performed (60 R221). -/
def effectOf : Instr → State → State
  | .nop => id
  | .lineIn => State.releaseLine
  | .lineOut p => State.driveLine p
  | .lineSet p => State.setLatch p
  | .delay => State.startDelay
  | .sample => State.startSample
  | .decodeA => State.decodeCore .a
  | .decodeB => State.decodeCore .b
  | .clrerr => State.clearErrors
  | .wrArg v => State.setArg v
  | .wrBrk v => State.setBreakThr v
  | .wrBit v => State.setBitThr v
  | .rdCmd | .rdStatus | .rdTicks | .rdArg | .rdBrk | .rdBit | .rdLine | .rdRaw | .rdCks | .rdHum | .rdTemp => id
  | .rdSegcap | .rdSeg _ | .rdRsvd _ | .wrIgn _ _ => id

theorem exec_guarded {i : Instr} (h : i.isGuarded = true) (s : State) : exec i s = guardedWrite (effectOf i) s := by
  cases i <;> first | rfl | cases h

/-- Every instruction is a guarded write, a read or the ignored write. -/
theorem exec_cases (i : Instr) (s : State) :
    (i.isGuarded = true ∧ exec i s = guardedWrite (effectOf i) s) ∨
      (i.isRead = true ∧ ∃ v, exec i s = readReg v s) ∨
      (i.isGuarded = false ∧ i.isRead = false ∧ exec i s = ignoredWrite s) := by
  cases i <;> first
    | exact .inl ⟨rfl, rfl⟩
    | exact .inr (.inl ⟨rfl, _, rfl⟩)
    | exact .inr (.inr ⟨rfl, rfl, rfl⟩)

/-! ### What a step that answers a next state did -/

/-- A tick, by the state of the sequencer. -/
theorem tick_inv {e : Level} {s t : State} (hr : s.resetAsserted = false) (h : tick e s = .next t) :
    (s.act = .idle ∧ t = s.advance e) ∨ (s.act = .delay ∧ t = (s.advance e).delayStep) ∨
      (s.act = .waitFall ∧ t = (s.advance e).waitFallStep) ∨
      (s.act = .low ∧ lowStep (s.advance e) = .next t) ∨ (s.act = .high ∧ highStep (s.advance e) = .next t) := by
  rw [tick_run hr] at h
  simp only [sequencerStep, State.advance_act] at h
  cases ha : s.act <;> rw [ha] at h <;> simp at h <;> simp [h]

/-- The end of a segment in `u`, at the 41st entry or before it. -/
abbrev SegmentEnded (next : Act) (u t : State) : Prop :=
  (u.segcount.toNat = 40 ∧
      t = { u with seg := u.seg.setIfInBounds 40 u.elapsed, segcount := 41#6, sstart := u.cnt,
                   endReason := .full, act := .idle }) ∨
    (u.segcount.toNat < 40 ∧
      t = { u with seg := u.seg.setIfInBounds u.segcount.toNat u.elapsed, segcount := u.segcount + 1#6,
                   sstart := u.cnt, act := next })

/-- No change of level in `u`: a break at the threshold, nothing below it. -/
abbrev LevelKept (u t : State) : Prop :=
  (u.breakThr ≤ u.elapsed ∧ t = u.stopSample .brk) ∨ (u.elapsed < u.breakThr ∧ t = u)

theorem breakCheck_kept (u : State) : LevelKept u u.breakCheck := by
  rcases breakCheck_cases u with ⟨h, e⟩ | ⟨h, e⟩ <;> rw [e]
  · exact .inl ⟨h, rfl⟩
  · exact .inr ⟨h, rfl⟩

theorem waitFallStep_cases (u : State) :
    u.pin = .low ∧ u.waitFallStep = { u with sstart := u.cnt, act := .low } ∨
      u.pin = .high ∧ LevelKept u u.waitFallStep := by
  cases h : u.pin
  · exact .inl ⟨rfl, by simp [State.waitFallStep, h]⟩
  · exact .inr ⟨rfl, by simpa [State.waitFallStep, h] using breakCheck_kept u⟩

theorem lowStep_inv {u t : State} (h : lowStep u = .next t) :
    u.pin = .high ∧ SegmentEnded .high u t ∨ u.pin = .low ∧ LevelKept u t := by
  cases hp : u.pin <;> simp only [lowStep, hp, if_true] at h
  · simp at h
    exact .inr ⟨rfl, h ▸ breakCheck_kept u⟩
  · exact .inl ⟨rfl, (endSegment_inv h).2⟩

theorem highStep_inv {u t : State} (h : highStep u = .next t) :
    u.pin = .low ∧ SegmentEnded .low u t ∨ u.pin = .high ∧ LevelKept u t := by
  cases hp : u.pin <;> simp only [highStep, hp, if_true] at h
  · exact .inl ⟨rfl, (endSegment_inv h).2⟩
  · simp at h
    exact .inr ⟨rfl, h ▸ breakCheck_kept u⟩

/-- A step, by the event it takes. -/
theorem step_inv {s t : State} (h : step s = .next t) :
    ∃ rest : List Event,
      (∃ e, (s.agenda = [] ∨ s.agenda = .tick e :: rest) ∧ tick e { s with agenda := rest } = .next t) ∨
      (∃ a, s.agenda = .access a :: rest ∧ performAccess a { s with agenda := rest } = .next t) ∨
      (s.agenda = .resetAssert :: rest ∧ t = ({ s with agenda := rest } : State).assertReset) ∨
      (∃ d e, s.agenda = .resetRelease d e :: rest ∧ t = ({ s with agenda := rest } : State).releaseReset d e) := by
  cases ha : s.agenda with
  | nil =>
    rw [step_nil ha] at h
    refine ⟨[], .inl ⟨s.nextEnv, .inl rfl, ?_⟩⟩
    rw [show ({ s with agenda := [] } : State) = s by rw [← ha]]
    exact h
  | cons ev rest =>
    rw [step_cons ha] at h
    cases ev with
    | tick e => exact ⟨rest, .inl ⟨e, .inr rfl, h⟩⟩
    | access a => exact ⟨rest, .inr (.inl ⟨a, rfl, h⟩)⟩
    | resetAssert =>
      simp [perform] at h
      exact ⟨rest, .inr (.inr (.inl ⟨rfl, h.symm⟩))⟩
    | resetRelease d e =>
      simp [perform] at h
      exact ⟨rest, .inr (.inr (.inr ⟨d, e, rfl, h.symm⟩))⟩

/-- An access, by what it left: a response only; OVR while busy; ILL while idle; or an instruction's effect while
idle. -/
theorem performAccess_effect {a : Access} {s t : State} (h : performAccess a s = .next t) :
    s.resetAsserted = false ∧
      ((∃ r n, t = { s with bus := r, errReads := n }) ∨
        (s.busy = true ∧ t = { s with bus := .done, ovr := true }) ∨
        (s.busy = false ∧ t = { s with bus := .done, ill := true }) ∨
        (s.busy = false ∧ ∃ i, decode a = .ok i ∧ i.isGuarded = true ∧ t = (effectOf i s).respond .done)) := by
  obtain ⟨hr, h⟩ := performAccess_inv h
  refine ⟨hr, ?_⟩
  rcases h with ⟨i, hd, he⟩ | ⟨r, hd, he⟩
  · rcases exec_cases i s with ⟨hg, h⟩ | ⟨_, v, h⟩ | ⟨_, _, h⟩ <;> rw [he] at h
    · rcases guardedWrite_cases h.symm with ⟨hb, e⟩ | ⟨hb, e⟩ <;> simp at e
      · exact .inr (.inr (.inr ⟨hb, i, hd, hg, e⟩))
      · exact .inr (.inl ⟨hb, e⟩)
    · simp [readReg] at h
      exact .inl ⟨_, s.errReads, h⟩
    · simp [ignoredWrite] at h
      exact .inl ⟨_, s.errReads, h⟩
  · rcases rejectAccess_cases he with ⟨_, e | e⟩ | ⟨_, hb, e⟩ | ⟨_, hb, e⟩ <;> simp at e
    · exact .inl ⟨_, _, e⟩
    · exact .inl ⟨_, s.errReads, e⟩
    · exact .inr (.inr (.inl ⟨hb, e⟩))
    · exact .inr (.inl ⟨hb, e⟩)

/-- What a decode leaves as it was. -/
theorem decodeCore_frame (m : SensorModel) (s : State) :
    { s.decodeCore m with outcome := s.outcome, raw := s.raw, cksRecv := s.cksRecv, cksCalc := s.cksCalc,
                          hum := s.hum, temp := s.temp } = s := by
  unfold State.decodeCore
  split_ifs <;> rfl

/-- What no guarded write touches; only SAMPLE writes SEGCOUNT. -/
theorem effectOf_frame (i : Instr) (s : State) :
    (effectOf i s).cnt = s.cnt ∧ (effectOf i s).instant = s.instant ∧ (effectOf i s).seg = s.seg ∧
      (effectOf i s).resetAsserted = s.resetAsserted ∧ (effectOf i s).agenda = s.agenda ∧
      (effectOf i s).endReason = s.endReason ∧ (i ≠ .sample → (effectOf i s).segcount = s.segcount) := by
  cases i <;> simp [effectOf]
  all_goals (unfold State.decodeCore; split_ifs <;> exact ⟨rfl, rfl, rfl, rfl, rfl, rfl, rfl⟩)

/-- Only DELAY and SAMPLE leave an idle block busy. -/
theorem effectOf_act (i : Instr) {s : State} (hb : s.busy = false) :
    (effectOf i s).act = .idle ∨ i = .delay ∨ i = .sample := by
  rw [State.busy_eq_false] at hb
  cases i <;> simp [effectOf, hb]
  all_goals (unfold State.decodeCore; split_ifs <;> exact hb)

/-- An invariant that no event breaks is kept by every step. `hfree`: it does not look at the flags OVR and ILL, the
response, the agenda or the model's counter of error reads. -/
theorem step_keeps (P : State → Prop)
    (hfree : ∀ s r n o i ag, P s → P { s with bus := r, errReads := n, ovr := o, ill := i, agenda := ag })
    (htick : ∀ s e t, P s → s.resetAsserted = false → tick e s = .next t → P t)
    (henv : ∀ s e, P s → P { s with env := e })
    (heffect : ∀ s i, P s → s.busy = false → i.isGuarded = true → P (effectOf i s))
    (hassert : ∀ s, P s → P s.assertReset)
    (hrelease : ∀ s d e, P s → s.resetAsserted = true → P (s.releaseReset d e)) :
    ∀ s t, P s → step s = .next t → P t := by
  intro s t hp h
  obtain ⟨rest, h⟩ := step_inv h
  have hp' : P { s with agenda := rest } := hfree s s.bus s.errReads s.ovr s.ill rest hp
  generalize ({ s with agenda := rest } : State) = u at *
  rcases h with ⟨e, _, h⟩ | ⟨a, _, h⟩ | ⟨_, rfl⟩ | ⟨d, e, _, rfl⟩
  · cases hr : u.resetAsserted
    · exact htick _ _ _ hp' hr h
    · rw [tick_reset hr] at h
      simp at h
      exact h ▸ henv _ _ hp'
  · obtain ⟨hr, h⟩ := performAccess_effect h
    rcases h with ⟨r, n, rfl⟩ | ⟨_, rfl⟩ | ⟨_, rfl⟩ | ⟨hb, i, hd, hg, rfl⟩
    · exact hfree u r n u.ovr u.ill u.agenda hp'
    · exact hfree u .done u.errReads true u.ill u.agenda hp'
    · exact hfree u .done u.errReads u.ovr true u.agenda hp'
    · exact hfree _ .done _ _ _ _ (heffect _ i hp' hb hg)
  · exact hassert _ hp'
  · cases hr : u.resetAsserted
    · simpa [State.releaseReset, hr] using hp'
    · exact hrelease _ _ _ hp' hr

/-- Elapsed time below a threshold grows by one tick, to at most the threshold: no wrap hides it (42 R151). -/
theorem elapsed_advance {s : State} (e : Level) {thr : Word} (h : s.elapsed < thr) :
    (s.advance e).elapsed.toNat = s.elapsed.toNat + 1 ∧ (s.advance e).elapsed ≤ thr := by
  simp only [State.elapsed, wrapDiff, State.advance_cnt, State.advance_sstart, BitVec.lt_def, BitVec.le_def] at *
  have hadd : s.cnt + 1#32 - s.sstart = (s.cnt - s.sstart) + 1#32 := by
    rw [BitVec.sub_eq_add_neg, BitVec.sub_eq_add_neg, BitVec.add_assoc, BitVec.add_comm 1#32, ← BitVec.add_assoc]
  have hlt := thr.isLt
  rw [hadd]
  generalize s.cnt - s.sstart = x at *
  simp only [BitVec.toNat_add, BitVec.toNat_ofNat]
  omega

end Sys2Proof.Machine
end

