-- ==== Sys2Proof/Laws/Reference.lean ====
section
/-! SUPPORT. What the host's basic moves can do: one access, one tick instant, its latency. -/

namespace Sys2Proof.Machine

/-- Bit 0 of STATUS is BUSY (10 R21): what WAIT polls. -/
theorem statusWord_getLsbD_zero (s : State) : s.statusWord.getLsbD 0 = s.busy := by
  rw [State.statusWord, BitVec.getLsbD_append]
  simp

/-- An access driven with success ran its instruction. -/
theorem drive_access {i : Instr} {s t : State} (hd : decode (encode i) = .ok i) (hr : s.resetAsserted = false)
    (h : drive (.access (encode i)) s = some t) : exec i { s with agenda := [] } = .next t := by
  have hs : step { s with agenda := [.access (encode i)] } = exec i { s with agenda := [] } :=
    step_exec (s := { s with agenda := [.access (encode i)] }) rfl hr hd
  unfold drive at h
  rw [hs] at h
  cases he : exec i { s with agenda := [] } <;> rw [he] at h <;> simp at h
  rw [h]

/-- A tick instant driven with success keeps the direction of the line, and an idle block idle. -/
theorem drive_tick {e : Level} {s t : State} (hr : s.resetAsserted = false) (h : drive (.tick e) s = some t) :
    t.dir = s.dir ∧ t.resetAsserted = false ∧ (s.act = .idle → t.act = .idle) := by
  have hs : step { s with agenda := [.tick e] } = tick e { s with agenda := [] } :=
    step_cons (s := { s with agenda := [.tick e] }) rfl
  unfold drive at h
  rw [hs] at h
  cases he : tick e { s with agenda := [] } <;> rw [he] at h <;> simp at h
  subst h
  rcases tick_inv (s := { s with agenda := [] }) hr he with ⟨_, rfl⟩ | ⟨ha, rfl⟩ | ⟨ha, rfl⟩ | ⟨ha, h⟩ | ⟨ha, h⟩
  · exact ⟨rfl, hr, id⟩
  · exact ⟨rfl, hr, fun h => by simp_all⟩
  · rcases waitFallStep_cases (({ s with agenda := [] } : State).advance e) with ⟨_, hx⟩ | ⟨_, ⟨_, hx⟩ | ⟨_, hx⟩⟩ <;>
      rw [hx] <;> exact ⟨rfl, hr, fun h => by simp_all⟩
  · rcases lowStep_inv h with ⟨_, ⟨_, rfl⟩ | ⟨_, rfl⟩⟩ | ⟨_, ⟨_, rfl⟩ | ⟨_, rfl⟩⟩ <;>
      exact ⟨rfl, hr, fun h => by simp_all⟩
  · rcases highStep_inv h with ⟨_, ⟨_, rfl⟩ | ⟨_, rfl⟩⟩ | ⟨_, ⟨_, rfl⟩ | ⟨_, rfl⟩⟩ <;>
      exact ⟨rfl, hr, fun h => by simp_all⟩

/-- Any number of tick instants keep the direction of the line, and an idle block idle. -/
theorem passTicks_keeps (n : Nat) {s t : State} {es es' : List Level} (hr : s.resetAsserted = false)
    (h : passTicks n s es = some (t, es')) :
    t.dir = s.dir ∧ t.resetAsserted = false ∧ (s.act = .idle → t.act = .idle) := by
  induction n generalizing s es with
  | zero =>
    obtain ⟨rfl, _⟩ : s = t ∧ es = es' := by simpa [passTicks] using h
    exact ⟨rfl, hr, id⟩
  | succ n ih =>
    cases es with
    | nil => simp [passTicks] at h
    | cons e es =>
      simp only [passTicks, Option.bind_eq_some_iff] at h
      obtain ⟨u, hu, h⟩ := h
      obtain ⟨hd, hr', ha⟩ := drive_tick hr hu
      obtain ⟨hd', hr'', ha'⟩ := ih hr' h
      exact ⟨hd'.trans hd, hr'', fun hi => ha' (ha hi)⟩

/-- The host's latency keeps the direction of the line, and an idle block idle. -/
theorem pause_keeps {b c : Bench} (hr : b.machine.resetAsserted = false) (h : b.pause = some c) :
    c.machine.dir = b.machine.dir ∧ c.machine.resetAsserted = false ∧
      (b.machine.act = .idle → c.machine.act = .idle) := by
  unfold Bench.pause at h
  split at h
  · obtain rfl : b = c := by simpa using h
    exact ⟨rfl, hr, id⟩
  · simp only [Bench.pass, Option.map_eq_some_iff] at h
    obtain ⟨⟨t, es⟩, hp, rfl⟩ := h
    exact passTicks_keeps _ hr hp

/-- An instruction issued with success ran in a state that the host's latency left. -/
theorem issue_inv {i : Instr} {b c : Bench} (hd : decode (encode i) = .ok i) (hr : b.machine.resetAsserted = false)
    (h : issue i b = some c) :
    ∃ u : State, u.dir = b.machine.dir ∧ u.resetAsserted = false ∧ (b.machine.act = .idle → u.act = .idle) ∧
      exec i u = .next c.machine := by
  simp only [issue, Option.bind_eq_some_iff, Option.map_eq_some_iff] at h
  obtain ⟨p, hp, t, ht, rfl⟩ := h
  obtain ⟨hdir, hr', ha⟩ := pause_keeps hr hp
  exact ⟨{ p.machine with agenda := [] }, hdir, hr', ha, drive_access hd hr' ht⟩

end Sys2Proof.Machine
end

