-- ==== Sys2Proof/Tests/Slice0.lean ====
section
/-! SUPPORT. Small tests of the model: well-formedness, decoding of words written out from spec/30_encoding.md R71 and
R78, single steps from the vectors of spec/95_test_vectors.md, and for every statement a witness of its hypotheses. -/

namespace Sys2Proof.Tests

open Sys2Proof Sys2Proof.Machine

/-! ### Helpers -/

/-- Idle after a reset, with the line pulled high. -/
def idle : State := { State.resetWith Config.resetDraws with env := .high }

/-- A DELAY of 10 ticks, just accepted. -/
def delaying : State := { idle with act := .delay, arg := 10#32 }

/-- A SAMPLE that waits for the fall and has waited `k` ticks. -/
def waiting (k : Nat) : State := { idle with act := .waitFall, cnt := BitVec.ofNat 32 k }

/-- A SAMPLE in its first low segment, `k` ticks old. -/
def inLow (k : Nat) : State := { idle with act := .low, cnt := BitVec.ofNat 32 k, env := .low }

/-- A SAMPLE in HIGH after `n` pushes of 10 ticks, 9 ticks into the segment. -/
def inHigh (n : Nat) : State :=
  { idle with act := .high, cnt := 9#32, segcount := BitVec.ofNat 6 n, seg := Vector.replicate 41 10#32 }

/-- The host's next access. -/
def facing (a : Access) (s : State) : State := { s with agenda := [.access a] }

/-- The next tick instant. -/
def ticking (e : Level) (s : State) : State := { s with agenda := [.tick e] }

/-- Does the answer hold a next state that passes? -/
def passes (r : Result) (ok : State → Bool) : Bool :=
  match r with
  | .next t => ok t
  | .fault _ => false
  | .refused _ => false

/-- What one read answers in a state. -/
def reads (i : Instr) (s : State) (v : Word) : Bool :=
  passes (exec i s) fun t => t.bus == .data v

/-- Bit `k` of a frame of five bytes, most significant bit first. -/
def frameBit (b0 b1 b2 b3 b4 : Nat) (k : Nat) : Bool :=
  ((b0 * 2 ^ 32 + b1 * 2 ^ 24 + b2 * 2 ^ 16 + b3 * 2 ^ 8 + b4) / 2 ^ (39 - k)) % 2 == 1

/-- An idle state whose log holds a frame in 40 segments, 26 ticks for a 0 and 70 for a 1 (95 §2.4). -/
def frame (b0 b1 b2 b3 b4 : Nat) : State :=
  { idle with
    segcount := 40#6
    seg := Vector.ofFn fun k => if k.val < 40 ∧ frameBit b0 b1 b2 b3 b4 k.val then 70#32 else 26#32 }

/-- The log of program P2 (95 §3): 80, then the frame 3C 05 19 00 5A. -/
def logP2 : State :=
  { idle with
    segcount := 41#6
    endReason := .full
    seg := Vector.ofFn fun k =>
      if k.val = 0 then 80#32 else if frameBit 0x3C 0x05 0x19 0x00 0x5A (k.val - 1) then 70#32 else 26#32 }

/-- Does a decode leave these results? -/
def decodes (i : Instr) (s : State) (o : DecodeOutcome) (raw cks hum temp : Word) : Bool :=
  passes (exec i s) fun t =>
    t.outcome == o && t.raw == raw && t.cksWord == cks && t.humWord == hum && t.tempWord == temp

/-! ### Well-formedness -/

/-- STATUS, SEG[0] and a misaligned offset are no reserved offsets; 0x30, 0x3C, 0xE4, 0xFC are (44 R213). -/
theorem test_rdRsvd_wellFormed :
    (Instr.rdRsvd 0x04#8).wellFormed = false ∧ (Instr.rdRsvd 0x40#8).wellFormed = false ∧
    (Instr.rdRsvd 0xE0#8).wellFormed = false ∧ (Instr.rdRsvd 0x31#8).wellFormed = false ∧
    (Instr.rdRsvd 0x30#8).wellFormed = true ∧ (Instr.rdRsvd 0x3C#8).wellFormed = true ∧
    (Instr.rdRsvd 0xE4#8).wellFormed = true ∧ (Instr.rdRsvd 0xFC#8).wellFormed = true := by decide

/-- A write to CMD, ARG, BREAK_THR or BIT_THR, and a misaligned one, is no ignored write (44 R212). -/
theorem test_wrIgn_wellFormed :
    (Instr.wrIgn 0x00#8 1#32).wellFormed = false ∧ (Instr.wrIgn 0x0C#8 1#32).wellFormed = false ∧
    (Instr.wrIgn 0x10#8 1#32).wellFormed = false ∧ (Instr.wrIgn 0x14#8 1#32).wellFormed = false ∧
    (Instr.wrIgn 0x05#8 1#32).wellFormed = false ∧ (Instr.wrIgn 0x04#8 1#32).wellFormed = true ∧
    (Instr.wrIgn 0x18#8 1#32).wellFormed = true ∧ (Instr.wrIgn 0x2C#8 1#32).wellFormed = true ∧
    (Instr.wrIgn 0x40#8 1#32).wellFormed = true ∧ (Instr.wrIgn 0xFC#8 1#32).wellFormed = true := by decide

/-! ### Decoding, from words written out from the encodings -/

/-- Format C: Z2 (23 bits), P, Z1 (4 bits), OP (4 bits) (30 R71, R72, R82). -/
theorem test_decode_commands :
    decodeTableWord 32 0b00000000000000000000000_0_0000_0000 = some .nop ∧
    decodeTableWord 32 0b00000000000000000000000_0_0000_0001 = some .lineIn ∧
    decodeTableWord 32 0b00000000000000000000000_0_0000_0010 = some (.lineOut .low) ∧
    decodeTableWord 32 0b00000000000000000000000_1_0000_0010 = some (.lineOut .high) ∧
    decodeTableWord 32 0b00000000000000000000000_0_0000_0011 = some (.lineSet .low) ∧
    decodeTableWord 32 0b00000000000000000000000_1_0000_0011 = some (.lineSet .high) ∧
    decodeTableWord 32 0b00000000000000000000000_0_0000_0100 = some .delay ∧
    decodeTableWord 32 0b00000000000000000000000_0_0000_0101 = some .sample ∧
    decodeTableWord 32 0b00000000000000000000000_0_0000_0110 = some .decodeA ∧
    decodeTableWord 32 0b00000000000000000000000_1_0000_0110 = some .decodeB ∧
    decodeTableWord 32 0b00000000000000000000000_0_0000_0111 = some .clrerr := by decide

/-- Format M reads: W = 0, off[7:2], 00 (30 R77, R78). -/
theorem test_decode_reads :
    decodeTableWord 9 0b0_000000_00 = some .rdCmd ∧ decodeTableWord 9 0b0_000001_00 = some .rdStatus ∧
    decodeTableWord 9 0b0_000010_00 = some .rdTicks ∧ decodeTableWord 9 0b0_000011_00 = some .rdArg ∧
    decodeTableWord 9 0b0_000100_00 = some .rdBrk ∧ decodeTableWord 9 0b0_000101_00 = some .rdBit ∧
    decodeTableWord 9 0b0_000110_00 = some .rdLine ∧ decodeTableWord 9 0b0_000111_00 = some .rdRaw ∧
    decodeTableWord 9 0b0_001000_00 = some .rdCks ∧ decodeTableWord 9 0b0_001001_00 = some .rdHum ∧
    decodeTableWord 9 0b0_001010_00 = some .rdTemp ∧ decodeTableWord 9 0b0_001011_00 = some .rdSegcap ∧
    decodeTableWord 9 0b0_010000_00 = some (.rdSeg 0) ∧ decodeTableWord 9 0b0_111000_00 = some (.rdSeg 40) ∧
    decodeTableWord 9 0b0_001100_00 = some (.rdRsvd 0x30#8) ∧
    decodeTableWord 9 0b0_111001_00 = some (.rdRsvd 0xE4#8) := by decide

/-- Format M writes: W = 1; the table gives the data word no bits, so it is 0 (30 R77, R78; log 2). -/
theorem test_decode_writes :
    decodeTableWord 9 0b1_000011_00 = some (.wrArg 0#32) ∧ decodeTableWord 9 0b1_000100_00 = some (.wrBrk 0#32) ∧
    decodeTableWord 9 0b1_000101_00 = some (.wrBit 0#32) ∧
    decodeTableWord 9 0b1_000001_00 = some (.wrIgn 0x04#8 0#32) ∧
    decodeTableWord 9 0b1_111111_00 = some (.wrIgn 0xFC#8 0#32) := by decide

/-- Illegal words: OP 8, Z1, P with LINE.IN, Z2 (95 K5, K6, K7, K9). -/
theorem test_decode_illegal :
    decode (.write .b32 0x00#8 0x00000008#32) = .error .reservedOpcode ∧
    decode (.write .b32 0x00#8 0x00000010#32) = .error .reservedBits ∧
    decode (.write .b32 0x00#8 0x00000101#32) = .error .strayOperand ∧
    decode (.write .b32 0x00#8 0x80000006#32) = .error .reservedBits := by decide

/-- Malformed accesses (95 K13, K14; 30 R78: A = 0x100 is format C). -/
theorem test_decode_malformed :
    decode (.read .b16 0x04#8) = .error .misSized ∧ decode (.read .b32 0x06#8) = .error .misaligned ∧
    decode (.write .b8 0x00#8 0x05#32) = .error .misSized := by decide

/-- Assembly text (30 R80) and byte lanes (20 R53). -/
theorem test_asm_lanes :
    asm (.lineOut .high) = "LINE.OUT 1" ∧ asm (.rdSeg 40) = "RD SEG[40]" ∧ asm (.wrArg 100#32) = "WR ARG, 100" ∧
    laneByte 0x11223344#32 0 = 0x44#8 ∧ laneByte 0x11223344#32 3 = 0x11#8 := by decide

/-! ### Reads -/

/-- 95 K1, K2, K4 and 44 R206: what a reset block reads. -/
theorem test_reads_after_reset :
    reads .rdStatus idle 0#32 ∧ reads .rdCmd idle 0#32 ∧ reads .rdSegcap idle 0x29#32 ∧ reads .rdArg idle 0#32 ∧
    reads .rdBrk idle 0x1F4#32 ∧ reads .rdBit idle 0x32#32 ∧ reads .rdLine idle 0x00000001#32 := by decide

/-- 44 R205: SEGCOUNT = 41, SUCCESS, FULL, idle. -/
theorem test_status_word :
    reads .rdStatus { idle with segcount := 41#6, outcome := .success, endReason := .full } 0x00290110#32 := by decide

/-- 95 §2.3: in HIGH after 3 pushes STATUS reads 0x00030009; 95 P5: OVR in a DELAY reads 0x23. -/
theorem test_status_busy :
    reads .rdStatus (inHigh 3) 0x00030009#32 ∧ reads .rdStatus { delaying with ovr := true } 0x00000023#32 := by decide

/-- 44 R208, 10 R30: a negative TEMP is sign-extended, CKS is {CALC, RECV}. -/
theorem test_temp_cks :
    reads .rdTemp { idle with temp := 0xFF9C#16 } 0xFFFFFF9C#32 ∧
    reads .rdHum { idle with hum := 0xFFFF#16 } 0x0000FFFF#32 ∧
    reads .rdCks { idle with cksCalc := 0xFC#8, cksRecv := 0xFF#8 } 0x0000FCFF#32 := by decide

/-- 40 R101: at instant 37 after a reset with TICK_RESET = 0xFFFFFFF0, TICKS reads 0x15; 44 R207, R210, R213. -/
theorem test_plain_reads :
    reads .rdTicks { idle with cnt := 0xFFFFFFF0#32 + 37#32 } 0x00000015#32 ∧
    reads .rdRaw { idle with raw := 0x0019053C#32 } 0x0019053C#32 ∧ reads (.rdSeg 0) logP2 80#32 ∧
    reads (.rdRsvd 0xFC#8) logP2 0#32 := by decide

/-! ### The line (95 §2.2) -/

/-- 41 R121, R122, R123: LINE.OUT 0, LINE.IN, LINE.SET 1. -/
theorem test_line_commands :
    passes (exec (.lineOut .low) idle) (fun t => t.lineWord == 0x00000002#32) ∧
    passes (exec .lineIn { idle with dir := .output }) (fun t => t.lineWord == 0x00000001#32) ∧
    passes (exec (.lineSet .high) { idle with dir := .output }) (fun t => t.lineWord == 0x00000007#32) := by decide

/-- 95 L10: LINE.IN while busy is dropped. -/
theorem test_line_busy :
    passes (exec .lineIn { delaying with dir := .output }) (fun t => t.ovr && t.lineWord == 0x00000002#32) := by decide

/-- 41 R124: a released line that the sensor pulls low reads 0. -/
theorem test_line_low : reads .rdLine { idle with env := .low } 0#32 := by decide

/-! ### DELAY (95 §2.1) -/

/-- 40 R104: the step that reaches ARG ends the DELAY; the one before it does not. -/
theorem test_delay_step :
    passes (step (ticking .high { delaying with dacc := 9#32 })) (fun t => t.act == .idle && t.dacc == 10#32) ∧
    passes (step (ticking .high { delaying with dacc := 8#32 })) (fun t => t.act == .delay) := by decide

/-- 40 R106: ARG = 0 still takes one tick. -/
theorem test_delay_zero :
    passes (exec .delay idle) (fun t => t.busy) ∧
    passes (step (ticking .high { delaying with arg := 0#32 })) (fun t => t.act == .idle && t.dacc == 1#32) := by decide

/-- 40 R105: the sum saturates. -/
theorem test_satAdd : satAdd 0xFFFFFFFF#32 2#32 = 0xFFFFFFFF#32 ∧ satAdd 1#32 2#32 = 3#32 := by decide

/-- 40 R101: `0x15 -w 0xFFFFFFF5 = 32`. -/
theorem test_wrapDiff : wrapDiff 0x00000015#32 0xFFFFFFF5#32 = 32#32 := by decide

/-! ### The sampler (95 §2.3) -/

/-- 42 R140: SAMPLE starts an empty log one instant ahead, and keeps END. -/
theorem test_sample_accept :
    passes (exec .sample { logP2 with outcome := .success, cnt := 0xFFFFFFFF#32 }) (fun t =>
      t.statusWord == 0x00000015#32 && t.sstart == 0#32 && t.seg == logP2.seg) := by decide

/-- 95 S1, S9: 500 ticks high is a break; a fall at that tick beats it. -/
theorem test_waitFall_boundary :
    passes (step (ticking .high (waiting 499))) (fun t => t.act == .idle && t.endReason == .brk) ∧
    passes (step (ticking .high (waiting 498))) (fun t => t.act == .waitFall) ∧
    passes (step (ticking .low (waiting 499))) (fun t => t.act == .low && t.segcount == 0#6 && t.sstart == 500#32) := by
  decide

/-- 95 S6, S7: a rise at 500 ticks is recorded; 500 ticks low without one is a break. -/
theorem test_low_boundary :
    passes (step (ticking .high (inLow 499))) (fun t => t.act == .high && t.segcount == 1#6 && t.seg[0] == 500#32) ∧
    passes (step (ticking .low (inLow 499))) (fun t => t.act == .idle && t.endReason == .brk && t.segcount == 0#6) := by
  decide

/-- 95 S13: the 41st push ends the SAMPLE by FULL; the 40th does not. -/
theorem test_push_full :
    passes (step (ticking .low (inHigh 40))) (fun t => t.act == .idle && t.endReason == .full && t.segcount == 41#6) ∧
    passes (step (ticking .low (inHigh 39))) (fun t => t.act == .low && t.segcount == 40#6) := by decide

/-! ### The decoder (95 §2.4) -/

/-- 95 D2, D7: a signed byte in Model A, a signed word in Model B. -/
theorem test_decode_signed :
    decodes .decodeA (frame 0x00 0x00 0xFF 0x05 0x04) .success 0x05FF0000#32 0x0404#32 0#32 0xFFFFFFFB#32 ∧
    decodes .decodeB (frame 0x01 0xF4 0xFF 0x9C 0x90) .success 0x9CFFF401#32 0x9090#32 500#32 0xFFFFFF9C#32 := by decide

/-- 95 D4, D8: the extremes. -/
theorem test_decode_extremes :
    decodes .decodeA (frame 0x00 0x00 0x80 0x80 0x00) .success 0x80800000#32 0#32 0#32 0xFFFFFA80#32 ∧
    decodes .decodeB (frame 0xFF 0xFF 0x80 0x65 0xE3) .success 0x6580FFFF#32 0xE3E3#32 0xFFFF#32 0xFFFF8065#32 := by
  decide

/-- 95 P2: 41 segments start at offset 1. -/
theorem test_decode_P2 : decodes .decodeA logP2 .success 0x0019053C#32 0x5A5A#32 605#32 250#32 := by decide

/-- 95 D11, D14: the same log as Model B; with BIT_THR = 0 every bit is 1, and HUM and TEMP stay. -/
theorem test_decode_again :
    decodes .decodeB logP2 .success 0x0019053C#32 0x5A5A#32 15365#32 6400#32 ∧
    decodes .decodeA { logP2 with bitThr := 0#32, hum := 605#16, temp := 250#16 } .corruptCksum
      0xFFFFFFFF#32 0xFCFF#32 605#32 250#32 := by decide

/-- 95 D12, D15: 0x80000000 is longer than 50; no segment is NO_RESPONSE and HUM is stale. -/
theorem test_decode_corners :
    decodes .decodeA { logP2 with seg := logP2.seg.set 1 0x80000000#32 } .corruptCksum
      0x001905BC#32 0xDA5A#32 0#32 0#32 ∧
    decodes .decodeA { idle with hum := 605#16 } .noResponse 0#32 0#32 605#32 0#32 ∧
    decodes .decodeB { frame 1 2 3 4 10 with segcount := 39#6 } .corruptCount 0#32 0#32 0#32 0#32 := by decide

/-! ### Control and errors (95 §2.5) -/

/-- 95 K5, K10: an illegal word sets ILL when idle and OVR when busy. -/
theorem test_illegal_word :
    passes (step (facing (.write .b32 0x00#8 8#32) idle)) (fun t => t.statusWord == 0x00000040#32) ∧
    passes (step (facing (.write .b32 0x00#8 0xF#32) delaying)) (fun t => t.statusWord == 0x00000023#32) := by decide

/-- 95 K11, K12: a configuration write while busy is dropped; a write to STATUS is ignored. -/
theorem test_busy_writes :
    passes (step (facing (.write .b32 0x10#8 7#32) delaying)) (fun t => t.ovr && t.breakThr == 500#32) ∧
    passes (step (facing (.write .b32 0x04#8 0xFFFFFFFF#32) delaying)) (fun t => t.statusWord == 3#32) := by decide

/-- 95 K14: an 8-bit write of SAMPLE's word to CMD starts nothing. -/
theorem test_buserr :
    passes (step (facing (.write .b8 0x00#8 5#32) idle)) (fun t => t.bus == .writeError && t.act == .idle) := by decide

/-- 95 K15, K16: CLRERR, idle and busy. -/
theorem test_clrerr :
    passes (exec .clrerr { idle with ovr := true, ill := true, outcome := .success }) (fun t =>
      t.statusWord == 0x00000100#32) ∧
    passes (exec .clrerr { delaying with ovr := true, ill := true }) (fun t => t.ovr && t.ill) := by decide

/-- 95 K17, K18 and 44 R203, R204: NOP and the configuration writes. -/
theorem test_config_writes :
    passes (exec .nop { idle with ovr := true }) (fun t => t.statusWord == 0x00000020#32) ∧
    passes (exec (.wrArg 0xFFFFFFFF#32) idle) (fun t => t.arg == 0xFFFFFFFF#32) ∧
    passes (exec (.wrBrk 7#32) idle) (fun t => t.breakThr == 7#32) ∧
    passes (exec (.wrBit 49#32) idle) (fun t => t.bitThr == 49#32) := by decide

/-- 95 L11: a write to LINE is ignored. -/
theorem test_ignored_write :
    passes (exec (.wrIgn 0x18#8 6#32) idle) (fun t => t.lineWord == 0x00000001#32 && t.statusWord == 0#32) := by decide

/-- The host's view of a placed word: SAMPLE runs as the next step from reset. -/
theorem test_placed_word :
    passes (step (State.reset.withFetchWord 32 5)) (fun t => t.act == .waitFall) ∧
    passes (step (State.reset.withFetchWord 9 0x02C)) (fun t => t.bus == .data 41#32) := by decide

/-- 70 R264, R265: a boot from an idle block, in another order, leaves it ready for a probe, and 40 R107: a wait of two ticks takes two. -/
theorem test_host_procedures :
    (boot [.clearErrors, .bitThr 40#32, .release, .breakThr 400#32]
      ⟨{ idle with dir := .output, ovr := true }, [], []⟩).map (fun b =>
      b.machine.readyForProbe && !b.machine.ovr && b.machine.breakThr == 400#32 && b.machine.bitThr == 40#32) =
      some true ∧
    (waitTicks 2#32 ⟨{ idle with cnt := 0xFFFFFFFF#32 }, [.high, .high, .high], []⟩).map (fun b =>
      (b.machine.cnt, b.levels)) = some (1#32, [.high]) := by decide

/-- 93 I15: two instants of latency before the only access; 40 R107: a short sleep is a DELAY of its length. -/
theorem test_host_latency :
    (odHigh ⟨idle, [.low, .low, .high], [2, 7]⟩).map (fun b => (b.machine.instant, b.levels, b.latency)) =
      some (2, [.high], [7]) ∧
    (sleepAtLeast 9 2#32 ⟨idle, [.high, .high, .high], []⟩).map (fun b => (b.machine.arg, b.machine.dacc, b.levels)) =
      some (2#32, 2#32, [.high]) ∧
    399 < Config.sleepBusyMax ∧ ¬ 400 < Config.sleepBusyMax := by decide

/-! ### Witnesses: for each statement with hypotheses, states and operands that meet them, clause by clause -/

/-- DecodeOfEncode: the instructions whose operands are checked. -/
theorem witness_DecodeOfEncode :
    (Instr.rdRsvd 0xE4#8).wellFormed = true ∧ (Instr.wrIgn 0xFC#8 5#32).wellFormed = true ∧
    (Instr.lineOut .high).wellFormed = true := by decide

/-- EncodeOfDecode. -/
theorem witness_EncodeOfDecode :
    decode (.read .b32 0xE0#8) = .ok (.rdSeg 40) ∧ decode (.write .b32 0x0C#8 7#32) = .ok (.wrArg 7#32) := by decide

/-- AdmittedAccessNeverBusError: an access that is not admitted, and both kinds of rejection. -/
theorem witness_AdmittedAccessNeverBusError :
    (Access.read .b16 0x04#8).admitted = false ∧
    decode (.write .b32 0x00#8 0x10F#32) = .error .reservedOpcode ∧
    decode (.read .b32 0xFE#8) = .error .misaligned := by decide

/-- StepRunsDecodedInstruction. -/
theorem witness_StepRunsDecodedInstruction :
    (facing (encode .sample) idle).agenda = [.access (encode .sample)] ∧
    (facing (encode .sample) idle).resetAsserted = false ∧ decode (encode .sample) = .ok .sample := by decide

/-- MalformedAccessChangesNothing: a wrong width; a wrong offset, the last one of the window. -/
theorem witness_MalformedAccessChangesNothing :
    ((facing (.write .b64 0x00#8 0#32) idle).agenda = [.access (.write .b64 0x00#8 0#32)] ∧
      idle.resetAsserted = false ∧ (Access.write .b64 0x00#8 0#32).size ≠ .b32) ∧
    ((facing (.read .b32 0xFF#8) idle).agenda = [.access (.read .b32 0xFF#8)] ∧
      (Access.read .b32 0xFF#8).off.toNat % 4 ≠ 0) := by decide

/-- BusyWriteIsDropped: a guarded offset, and the lowest and highest ignored ones. -/
theorem witness_BusyWriteIsDropped :
    (facing (.write .b32 0x14#8 0#32) delaying).agenda = [.access (.write .b32 0x14#8 0#32)] ∧
    delaying.resetAsserted = false ∧ delaying.busy = true ∧ ignoredOffset 0x04#8 = true ∧
    ignoredOffset 0xFC#8 = true := by decide

/-- IllegalCommandSetsIll: one word for each way to be illegal, at the edge of its field. -/
theorem witness_IllegalCommandSetsIll :
    (facing (.write .b32 0x00#8 8#32) idle).agenda = [.access (.write .b32 0x00#8 8#32)] ∧
    idle.resetAsserted = false ∧ idle.busy = false ∧ 8 ≤ (8#32).toNat % 16 ∧ (0x80#32).toNat / 16 % 16 ≠ 0 ∧
    (0x200#32).toNat / 512 ≠ 0 ∧
    ((0x107#32).toNat / 256 % 2 = 1 ∧ (0x107#32).toNat % 16 ∈ [0, 1, 4, 5, 7]) := by decide

/-- AccessCheckOrder, each clause. -/
theorem witness_AccessCheckOrder :
    (Access.write .b8 0x00#8 5#32).admitted = false ∧
    ((Access.write .b32 0x00#8 0xF#32).admitted = true ∧ delaying.busy = true ∧
      (Access.write .b32 0x00#8 0xF#32).isGuardedWrite = true) ∧
    ((Access.write .b32 0x00#8 0xF#32).admitted = true ∧ idle.busy = false) ∧
    ((Access.read .b32 0x04#8).admitted = true ∧ (Access.read .b32 0x04#8).isGuardedWrite = false) ∧
    (facing (.read .b32 0x04#8) idle).agenda = [.access (.read .b32 0x04#8)] ∧ idle.resetAsserted = false := by decide

/-- ErrorsSetAtMostOneFlag, both ways to be an error. -/
theorem witness_ErrorsSetAtMostOneFlag :
    (facing (.write .b32 0x00#8 0x104#32) idle).agenda = [.access (.write .b32 0x00#8 0x104#32)] ∧
    idle.resetAsserted = false ∧ decode (.write .b32 0x00#8 0x104#32) = .error .strayOperand ∧
    delaying.busy = true ∧ decode (.write .b32 0x10#8 7#32) = .ok (.wrBrk 7#32) ∧
    (Instr.wrBrk 7#32).isGuarded = true := by decide

/-- ReadsHaveNoSideEffect. -/
theorem witness_ReadsHaveNoSideEffect : (Instr.rdSeg 40).isRead = true ∧ (Instr.rdLine).isRead = true := by decide

/-- LineReadsThePin: released, driven low, and driven high without contention. -/
theorem witness_LineReadsThePin :
    idle.dir = .input ∧
    (({ idle with dir := .output } : State).dir = .output ∧ ({ idle with dir := .output } : State).out = .low) ∧
    (({ idle with dir := .output, out := .high } : State).out = .high ∧
      ({ idle with dir := .output, out := .high } : State).env = .high) := by decide

/-- SegmentReads: the first and the last entry. -/
theorem witness_SegmentReads :
    (0x40#8).toNat = 0x40 + 4 * (0 : Fin 41).val ∧ (0xE0#8).toNat = 0x40 + 4 * (40 : Fin 41).val := by decide

/-- ReservedReadsReturnZero: the ends of both ranges. -/
theorem witness_ReservedReadsReturnZero :
    (facing (.read .b32 0x30#8) idle).agenda = [.access (.read .b32 0x30#8)] ∧ idle.resetAsserted = false ∧
    ((0x30#8).toNat % 4 = 0 ∧ 0x30 ≤ (0x30#8).toNat ∧ (0x30#8).toNat ≤ 0x3C) ∧
    ((0x3C#8).toNat % 4 = 0 ∧ (0x3C#8).toNat ≤ 0x3C) ∧
    ((0xE4#8).toNat % 4 = 0 ∧ 0xE4 ≤ (0xE4#8).toNat ∧ (0xE4#8).toNat ≤ 0xFC) ∧
    ((0xFC#8).toNat % 4 = 0 ∧ (0xFC#8).toNat ≤ 0xFC) := by decide

/-- IgnoredWritesChangeNothing: STATUS, TICKS, LINE, and the ends of both ranges. -/
theorem witness_IgnoredWritesChangeNothing :
    (facing (.write .b32 0x1C#8 1#32) idle).agenda = [.access (.write .b32 0x1C#8 1#32)] ∧
    idle.resetAsserted = false ∧ (0x04#8).toNat = 0x04 ∧ (0x08#8).toNat = 0x08 ∧ (0x18#8).toNat = 0x18 ∧
    ((0x1C#8).toNat % 4 = 0 ∧ 0x1C ≤ (0x1C#8).toNat ∧ (0x2C#8).toNat % 4 = 0 ∧ (0x2C#8).toNat ≤ 0x2C) ∧
    ((0x30#8).toNat % 4 = 0 ∧ 0x30 ≤ (0x30#8).toNat ∧ (0xFC#8).toNat % 4 = 0 ∧ (0xFC#8).toNat ≤ 0xFC) := by decide

/-- ConfigurationWrites, LineCommands, NopAndClrerr, DelayAndSampleAcceptance: an idle state. -/
theorem witness_idle : idle.busy = false := by decide

/-- DecodeCountsSegments: no segment, one, 39. -/
theorem witness_DecodeCountsSegments :
    idle.busy = false ∧ idle.segcount.toNat = 0 ∧
    (({ idle with segcount := 1#6 } : State).busy = false ∧ 1 ≤ ({ idle with segcount := 1#6 } : State).segcount.toNat) ∧
    (({ idle with segcount := 39#6 } : State).busy = false ∧
      ({ idle with segcount := 39#6 } : State).segcount.toNat ≤ 39) := by decide

/-- DecodePacksThresholdedBits, with 40 segments and with 41. -/
theorem witness_DecodePacksThresholdedBits :
    ((frame 1 2 3 4 10).busy = false ∧ (frame 1 2 3 4 10).segcount.toNat = 40 + 0) ∧
    (logP2.busy = false ∧ logP2.segcount.toNat = 40 + 1) := by decide

/-- DecodeChecksTheSum, DecodeModelAValues, DecodeModelBValues: a checksum that matches, and one that does not. -/
theorem witness_DecodeChecksTheSum :
    (logP2.busy = false ∧ 40 ≤ logP2.segcount.toNat ∧ passes (exec .decodeA logP2) fun t => t.cksCalc == t.cksRecv) ∧
    ((frame 1 2 3 4 11).busy = false ∧ 40 ≤ (frame 1 2 3 4 11).segcount.toNat ∧
      passes (exec .decodeB (frame 1 2 3 4 11)) fun t => t.cksCalc != t.cksRecv) := by decide

/-- SingleBitChangeBreaksChecksum. -/
theorem witness_SingleBitChangeBreaksChecksum : checksum 0x3C#8 0x05#8 0x19#8 0x00#8 = 0x5A#8 := by decide

/-- DecodeAgainGivesTheSame. -/
theorem witness_DecodeAgainGivesTheSame :
    idle.busy = false ∧ ∃ t u, exec .decodeA idle = .next t ∧ exec .decodeB t = .next u :=
  ⟨by decide, _, _, rfl, rfl⟩

/-- CounterFollowsTime: a tick, an access, and the release of reset. -/
theorem witness_CounterFollowsTime :
    (∃ t, step (ticking .low idle) = .next t) ∧ (∃ t, step (facing (.read .b32 0x08#8) idle) = .next t) ∧
    (∃ t, step { idle with resetAsserted := true, agenda := [.resetRelease Config.resetDraws .high] } = .next t) ∧
    idle.cnt = BitVec.ofNat 32 (0 + idle.instant) ∧
    (∀ d e rest, (ticking .low idle).agenda ≠ .resetRelease d e :: rest) :=
  ⟨⟨_, rfl⟩, ⟨_, rfl⟩, ⟨_, rfl⟩, by decide, fun _ _ _ h => by cases h⟩

/-- IdleTickTakesNoStep. -/
theorem witness_IdleTickTakesNoStep :
    (ticking .low idle).agenda = [.tick .low] ∧ idle.resetAsserted = false ∧ idle.act = .idle := by decide

/-- DelayStepEachTick: an ordinary step, and one that saturates. -/
theorem witness_DelayStepEachTick :
    (ticking .low delaying).agenda = [.tick .low] ∧ delaying.resetAsserted = false ∧ delaying.act = .delay ∧
    (1#32).toNat = min (delaying.dacc.toNat + (delaying.cnt + 1#32 - delaying.dlast).toNat) (2 ^ 32 - 1) ∧
    (0xFFFFFFFF#32).toNat = min ((0xFFFFFFFF#32).toNat + (delaying.cnt + 1#32 - delaying.dlast).toNat) (2 ^ 32 - 1) := by
  decide

/-- DelayLastsItsTicks: an idle state with ARG = 0, and one with ARG = 10. -/
theorem witness_DelayLastsItsTicks :
    (idle.busy = false ∧ idle.resetAsserted = false ∧ idle.arg.toNat = 0) ∧
    (({ idle with arg := 10#32 } : State).busy = false ∧ ({ idle with arg := 10#32 } : State).arg.toNat = 10) := by decide

/-- WaitFallStep, at the threshold. -/
theorem witness_WaitFallStep :
    (ticking .high (waiting 499)).agenda = [.tick .high] ∧ (waiting 499).resetAsserted = false ∧
    (waiting 499).act = .waitFall := by decide

/-- LowStep, with an empty log and at the 41st entry. -/
theorem witness_LowStep :
    (ticking .high (inLow 499)).agenda = [.tick .high] ∧ (inLow 499).resetAsserted = false ∧ (inLow 499).act = .low ∧
    (inLow 499).segcount.toNat < 41 ∧ ({ inLow 499 with segcount := 40#6 } : State).segcount.toNat < 41 := by decide

/-- HighStep, below the 41st entry and at it. -/
theorem witness_HighStep :
    (ticking .low (inHigh 39)).agenda = [.tick .low] ∧ (inHigh 39).resetAsserted = false ∧ (inHigh 39).act = .high ∧
    (inHigh 39).segcount.toNat < 41 ∧ (inHigh 40).segcount.toNat < 41 := by decide

/-- RunLengthIsRecorded: a run of one tick in LOW, and the longest run in HIGH. -/
theorem witness_RunLengthIsRecorded :
    ((inLow 0).act = .low ∧ (inLow 0).segcount.toNat < 41 ∧ (inLow 0).resetAsserted = false ∧
      (inLow 0).dir = .input ∧ (inLow 0).sstart = (inLow 0).cnt ∧ 1 ≤ max (inLow 0).breakThr.toNat 1) ∧
    (({ inHigh 1 with cnt := 0#32 } : State).act = .high ∧
      ({ inHigh 1 with cnt := 0#32 } : State).sstart = ({ inHigh 1 with cnt := 0#32 } : State).cnt ∧
      500 = max ({ inHigh 1 with cnt := 0#32 } : State).breakThr.toNat 1) := by decide

/-- SampleTerminates, with BREAK_THR = 0 and a waveform that changes at every tick. -/
theorem witness_SampleTerminates :
    ({ idle with breakThr := 0#32 } : State).busy = false ∧ ({ idle with breakThr := 0#32 } : State).resetAsserted = false ∧
    1 + ({ idle with breakThr := 0#32 } : State).breakThr.toNat +
      41 * max ({ idle with breakThr := 0#32 } : State).breakThr.toNat 1 ≤
      (List.replicate 21 [Level.low, Level.high]).flatten.length := by decide

/-- SilentLineGivesNoResponse, at the smallest number of ticks. -/
theorem witness_SilentLineGivesNoResponse :
    idle.busy = false ∧ idle.resetAsserted = false ∧ idle.dir = .input ∧
    (Instr.decodeB = .decodeA ∨ Instr.decodeB = .decodeB) ∧ idle.breakThr.toNat + 1 ≤ 501 := by decide

/-- SampleOfDrivenLowLineBreaks, with BREAK_THR = 1 and a sensor that moves. -/
theorem witness_SampleOfDrivenLowLineBreaks :
    ({ idle with dir := .output, breakThr := 1#32 } : State).busy = false ∧
    ({ idle with dir := .output, breakThr := 1#32 } : State).resetAsserted = false ∧
    ({ idle with dir := .output, breakThr := 1#32 } : State).dir = .output ∧
    ({ idle with dir := .output, breakThr := 1#32 } : State).out = .low ∧
    1 + max ({ idle with dir := .output, breakThr := 1#32 } : State).breakThr.toNat 1 ≤ [Level.low, Level.high].length := by
  decide

/-- SamplerWritesOnlyItsOwn. -/
theorem witness_SamplerWritesOnlyItsOwn :
    (ticking .low (inHigh 40)).agenda = [.tick .low] ∧ (inHigh 40).resetAsserted = false ∧
    (inHigh 40).act.sampling = true ∧ (inHigh 40).segcount.toNat < 41 := by decide

/-- LegalIsKept, TimedIsKept, AlternationIsKept, DurationBoundsAreKept: a SAMPLE with three entries, at a push. -/
theorem witness_invariants :
    (ticking .low (inHigh 3)).Legal ∧ (ticking .low (inHigh 3)).Timed ∧ (ticking .low (inHigh 3)).Alternates ∧
    (ticking .low (inHigh 3)).DurationsBounded ∧ ∃ t, step (ticking .low (inHigh 3)) = .next t :=
  ⟨by decide, by decide, by decide, by decide, _, rfl⟩

/-- LegalMachineNeverStops: with reset not asserted, and with reset asserted and no access next. -/
theorem witness_LegalMachineNeverStops :
    (inHigh 40).Legal ∧ (inHigh 40).resetAsserted = false ∧
    (({ idle with resetAsserted := true } : State).Legal ∧
      ∀ a rest, ({ idle with resetAsserted := true } : State).agenda ≠ .access a :: rest) :=
  ⟨by decide, by decide, by decide, fun _ _ h => by cases h⟩

/-- OnlyLineCommandsMoveTheLine. -/
theorem witness_OnlyLineCommandsMoveTheLine :
    ∃ t, step (facing (encode (.lineOut .high)) idle) = .next t ∧ t.dir ≠ idle.dir ∧ t.out ≠ idle.out :=
  ⟨_, rfl, by decide, by decide⟩

/-- OnlyThePushWritesTheLog. -/
theorem witness_OnlyThePushWritesTheLog :
    ∃ t, step (ticking .high (inLow 29)) = .next t ∧ t.seg ≠ (inLow 29).seg :=
  ⟨_, rfl, by decide⟩

/-- ErrorFlagsAreSticky. -/
theorem witness_ErrorFlagsAreSticky :
    ∃ t, step (facing (encode .clrerr) { idle with ovr := true, ill := true }) = .next t ∧ t.ovr = false ∧
      t.ill = false :=
  ⟨_, rfl, by decide, by decide⟩

/-- NoAbort. -/
theorem witness_NoAbort :
    ∃ t, step (ticking .high (waiting 499)) = .next t ∧ (waiting 499).act ≠ .idle ∧ t.act = .idle :=
  ⟨_, rfl, by decide, by decide⟩

/-- ResetTable. -/
theorem witness_ResetTable :
    ({ inHigh 3 with resetAsserted := true, agenda := [.resetRelease Config.resetDraws .low] } : State).resetAsserted = true ∧
    ({ inHigh 3 with resetAsserted := true, agenda := [.resetRelease Config.resetDraws .low] } : State).agenda =
      [.resetRelease Config.resetDraws .low] := by decide

/-- AssertedResetHoldsTheBlock, each clause. -/
theorem witness_AssertedResetHoldsTheBlock :
    ({ idle with agenda := [.resetAssert] } : State).agenda = [.resetAssert] ∧
    ((ticking .low { inHigh 3 with resetAsserted := true }).agenda = [.tick .low] ∧
      (ticking .low { inHigh 3 with resetAsserted := true }).resetAsserted = true) ∧
    ((facing (encode .nop) { idle with resetAsserted := true }).agenda = [.access (encode .nop)] ∧
      (facing (encode .nop) { idle with resetAsserted := true }).resetAsserted = true) := by decide

/-- RetryCountdown: the bound of its second and last clauses and the outcomes of its last three. -/
theorem witness_RetryCountdown :
    (9 : Nat) < 10 ∧ (ProbeOutcome.corruptCount = .corruptCount ∨ ProbeOutcome.corruptCount = .corruptCksum) := by decide

/-- ProbeLeavesLineReleased: a probe with BREAK_THR = 0, by a host that waits one instant before SAMPLE (its fifth access),
that ends with NO_RESPONSE after three ticks. -/
theorem witness_ProbeLeavesLineReleased :
    ({ idle with breakThr := 0#32 } : State).busy = false ∧
    ({ idle with breakThr := 0#32 } : State).resetAsserted = false ∧
    (probeOnce .a 1#32 0#32 ⟨{ idle with breakThr := 0#32 }, [.high, .high, .high], [0, 0, 0, 0, 1]⟩).map
      (fun r => (r.1, r.2.levels)) = some (.noResponse, []) := by decide

end Sys2Proof.Tests
end

section
/-! The statements about the state: the result registers and the segment log as the host reads them, what writes the
log, and the invariants of 10 R40. -/

namespace Sys2Proof.Machine

/-! ### Reads -/

/-- CKS as a number: CALC in the second byte, RECV in the lowest (10 R30). -/
theorem cksWord_toNat (s : State) : s.cksWord.toNat = s.cksCalc.toNat * 256 + s.cksRecv.toNat := by
  have hrecv := s.cksRecv.isLt
  simp only [State.cksWord, BitVec.toNat_append, BitVec.toNat_ofNat, Nat.zero_mod, Nat.zero_shiftLeft, Nat.zero_or]
  rw [← Nat.shiftLeft_add_eq_or_of_lt hrecv, Nat.shiftLeft_eq]

/-- HUM as a number: zero extension keeps the value (10 R31). -/
theorem humWord_toNat (s : State) : s.humWord.toNat = s.hum.toNat :=
  BitVec.toNat_setWidth_of_le (by decide)

/-- TEMP as a signed number: sign extension keeps the value (10 R32). -/
theorem tempWord_toInt (s : State) : s.tempWord.toInt = s.temp.toInt :=
  BitVec.toInt_signExtend_of_le (by decide)

/-- Settles O17: each read hands back its register as a word, with the value of `cksWord_toNat`, `humWord_toNat` and
`tempWord_toInt`. -/
theorem resultRegisterReads : Obligations.ResultRegisterReads := fun s =>
  ⟨⟨s.cksWord, rfl, cksWord_toNat s⟩, ⟨s.humWord, rfl, humWord_toNat s⟩, ⟨s.tempWord, rfl, tempWord_toInt s⟩⟩

/-- The 32-bit read at SEG[k]'s offset is RD.SEG k (30 R78, 10 R34). -/
theorem decode_read_segOffset (k : Fin 41) : decode (.read .b32 (segOffset k)) = .ok (.rdSeg k) := by
  simp [decode, checkShape_admitted (alignedOffset_segOffset k), decodeRegister, regForm_seg, RegForm.instr,
    segIndex_segOffset]

/-- The offset 0x40 + 4k is that of SEG[k] (10 R34). -/
theorem eq_segOffset {off : Byte} {k : Fin 41} (h : off.toNat = 0x40 + 4 * k.val) : off = segOffset k := by
  apply BitVec.eq_of_toNat_eq
  simp only [segOffset, BitVec.toNat_ofNat]
  omega

/-- Settles O18: the offset is `segOffset k`, which the decoder reads as RD.SEG k. -/
theorem segmentReads : Obligations.SegmentReads := by
  intro s k off hoff
  rw [eq_segOffset hoff]
  exact ⟨decode_read_segOffset k, rfl⟩

/-! ### What writes the segment log -/

/-- `t` holds one entry more than `u`, and the other entries are those of `u` (42 R145). -/
def OneEntryPushed (u t : State) : Prop :=
  t.segcount.toNat = u.segcount.toNat + 1 ∧ ∀ k : Fin 41, k.val ≠ u.segcount.toNat → t.seg[k] = u.seg[k]

/-- The end of a segment pushes one entry. -/
theorem SegmentEnded.oneEntryPushed {next : Act} {u t : State} (h : SegmentEnded next u t) : OneEntryPushed u t := by
  rcases h with ⟨hc, rfl⟩ | ⟨hc, rfl⟩
  · refine ⟨by simp [hc], fun k hk => ?_⟩
    simp [Vector.getElem_setIfInBounds_ne, show 40 ≠ k.val by omega]
  · refine ⟨segcount_succ (by omega), fun k hk => ?_⟩
    simp [Vector.getElem_setIfInBounds_ne, hk.symm]

/-- Without a change of level the log stays as it is. -/
theorem LevelKept.seg_eq {u t : State} (h : LevelKept u t) : t.seg = u.seg := by
  rcases h with ⟨_, rfl⟩ | ⟨_, rfl⟩ <;> rfl

/-- A tick leaves the log as it is, or is the push of a LOW or HIGH step (42 R143 to R145). -/
theorem tick_log {e : Level} {s t : State} (hr : s.resetAsserted = false) (h : tick e s = .next t) :
    t.seg = s.seg ∨ (s.act = .low ∨ s.act = .high) ∧ OneEntryPushed s t := by
  rcases tick_inv hr h with ⟨_, rfl⟩ | ⟨_, rfl⟩ | ⟨_, rfl⟩ | ⟨ha, h⟩ | ⟨ha, h⟩
  · exact .inl rfl
  · exact .inl rfl
  · rcases waitFallStep_cases (s.advance e) with ⟨_, hstep⟩ | ⟨_, hkept⟩
    · exact .inl (by rw [hstep]; rfl)
    · exact .inl hkept.seg_eq
  · rcases lowStep_inv h with ⟨_, hended⟩ | ⟨_, hkept⟩
    · exact .inr ⟨.inl ha, hended.oneEntryPushed⟩
    · exact .inl hkept.seg_eq
  · rcases highStep_inv h with ⟨_, hended⟩ | ⟨_, hkept⟩
    · exact .inr ⟨.inr ha, hended.oneEntryPushed⟩
    · exact .inl hkept.seg_eq

/-- No host access writes the log (20 R64). -/
theorem performAccess_seg {a : Access} {s t : State} (h : performAccess a s = .next t) : t.seg = s.seg := by
  obtain ⟨_, ⟨r, n, rfl⟩ | ⟨_, rfl⟩ | ⟨_, rfl⟩ | ⟨_, i, _, _, rfl⟩⟩ := performAccess_effect h
  · rfl
  · rfl
  · rfl
  · obtain ⟨_, _, hseg, _⟩ := effectOf_frame i s
    exact hseg

/-- Settles O54: of the four kinds of event only a push at a tick and an effective release change the log. -/
theorem onlyThePushWritesTheLog : Obligations.OnlyThePushWritesTheLog := by
  intro s t h hne
  obtain ⟨rest, ⟨e, hag, h⟩ | ⟨a, _, h⟩ | ⟨_, rfl⟩ | ⟨d, e, hag, rfl⟩⟩ := step_inv h
  · cases hr : s.resetAsserted with
    | false =>
      rcases tick_log (s := { s with agenda := rest }) hr h with hseg | ⟨hact, hcount, hother⟩
      · exact absurd hseg hne
      · exact .inr ⟨hag.imp_right fun hag => ⟨e, rest, hag⟩, hact, hcount, hother⟩
    | true =>
      rw [tick_reset (s := { s with agenda := rest }) hr] at h
      cases h
      exact absurd rfl hne
  · exact absurd (performAccess_seg h) hne
  · exact absurd rfl hne
  · cases hr : s.resetAsserted with
    | false => exact absurd (by simp [State.releaseReset, hr]) hne
    | true => exact .inl ⟨d, e, rest, hag, rfl⟩

/-! ### The invariants of 10 R40 -/

/-- An idle block is legal as soon as its log is within capacity. -/
theorem legal_of_idle {s : State} (hcount : s.segcount.toNat ≤ 41) (hact : s.act = .idle) : s.Legal :=
  ⟨hcount, fun _ => by rw [hact]; rfl, fun h => by rw [hact] at h; cases h⟩

/-- With room in its log a block that runs no DELAY is legal. -/
theorem legal_of_room {s : State} (hcount : s.segcount.toNat < 41) (hact : s.act ≠ .delay) : s.Legal :=
  ⟨hcount.le, fun h => absurd h hcount.ne, fun h => absurd h hact⟩

theorem State.Legal.segcount_le {s : State} (hs : s.Legal) : s.segcount.toNat ≤ 41 := hs.1

/-- A legal state has room in its log while a SAMPLE runs. -/
theorem State.Legal.segcount_lt {s : State} (hs : s.Legal) (hact : s.act.sampling = true) :
    s.segcount.toNat < 41 := by
  obtain ⟨hcount, hfull, _⟩ := hs
  exact lt_of_le_of_ne hcount fun h => by rw [hfull h] at hact; cases hact

/-- A DELAY step goes on only below ARG (40 R104). -/
theorem delayStep_legal {u : State} (hu : u.Legal) (hact : u.act = .delay) : u.delayStep.Legal := by
  by_cases hle : u.arg ≤ satAdd u.dacc (wrapDiff u.cnt u.dlast)
  · exact legal_of_idle hu.segcount_le (if_pos hle)
  · refine ⟨hu.segcount_le, fun _ => ?_, fun _ => .inl (BitVec.not_le.mp hle)⟩
    simp [State.delayStep, hle, hact, Act.sampling]

/-- Without a change of level a legal state stays legal. -/
theorem LevelKept.legal {u t : State} (h : LevelKept u t) (hu : u.Legal) : t.Legal := by
  rcases h with ⟨_, rfl⟩ | ⟨_, rfl⟩
  · exact legal_of_idle hu.segcount_le rfl
  · exact hu

/-- The end of a segment leaves a legal state: the 41st entry ends the SAMPLE (42 R147). -/
theorem SegmentEnded.legal {next : Act} {u t : State} (h : SegmentEnded next u t) (hnext : next ≠ .delay) :
    t.Legal := by
  rcases h with ⟨_, rfl⟩ | ⟨hc, rfl⟩
  · exact legal_of_idle (Nat.le_refl 41) rfl
  · refine legal_of_room ?_ hnext
    have := segcount_succ (c := u.segcount) (by omega)
    simp only [this]
    omega

/-- A tick keeps the invariants: time alone does not touch them, and each step of the sequencer keeps them. -/
theorem tick_legal {e : Level} {s t : State} (hs : s.Legal) (hr : s.resetAsserted = false) (h : tick e s = .next t) :
    t.Legal := by
  have hadv : (s.advance e).Legal := hs
  rcases tick_inv hr h with ⟨_, rfl⟩ | ⟨ha, rfl⟩ | ⟨ha, rfl⟩ | ⟨_, h⟩ | ⟨_, h⟩
  · exact hadv
  · exact delayStep_legal hadv ha
  · rcases waitFallStep_cases (s.advance e) with ⟨_, hstep⟩ | ⟨_, hkept⟩
    · have hroom : s.segcount.toNat < 41 := hs.segcount_lt (by rw [ha]; rfl)
      rw [hstep]
      exact legal_of_room hroom (by simp)
    · exact hkept.legal hadv
  · rcases lowStep_inv h with ⟨_, hended⟩ | ⟨_, hkept⟩
    · exact hended.legal (by decide)
    · exact hkept.legal hadv
  · rcases highStep_inv h with ⟨_, hended⟩ | ⟨_, hkept⟩
    · exact hended.legal (by decide)
    · exact hkept.legal hadv

/-- A guarded write that an idle block performs keeps the invariants: only DELAY and SAMPLE start an operation, with
DACC = 0 (40 R103) and an empty log (42 R140). -/
theorem effectOf_legal {s : State} (i : Instr) (hs : s.Legal) (hb : s.busy = false) : (effectOf i s).Legal := by
  by_cases hsample : i = .sample
  · subst hsample
    exact legal_of_room (Nat.succ_pos 40) (by simp [effectOf])
  obtain ⟨_, _, _, _, _, _, hseg⟩ := effectOf_frame i s
  have hcount : (effectOf i s).segcount.toNat ≤ 41 := by rw [hseg hsample]; exact hs.segcount_le
  rcases effectOf_act i hb with hidle | rfl | rfl
  · exact legal_of_idle hcount hidle
  · exact ⟨hcount, fun _ => rfl, fun _ => .inr rfl⟩
  · exact absurd rfl hsample

/-- The release of reset leaves an idle block with an empty log (70 R261). -/
theorem releaseReset_legal {s : State} (d : Config.ResetDraws) (e : Level) (hr : s.resetAsserted = true) :
    (s.releaseReset d e).Legal := by
  rw [State.releaseReset, if_pos hr]
  exact legal_of_idle (Nat.zero_le 41) rfl

/-- Settles O47, event by event. -/
theorem legalIsKept : Obligations.LegalIsKept :=
  step_keeps State.Legal
    (hfree := fun _ _ _ _ _ _ hs => hs)
    (htick := fun _ _ _ hs hr h => tick_legal hs hr h)
    (henv := fun _ _ hs => hs)
    (heffect := fun _ i hs hb _ => effectOf_legal i hs hb)
    (hassert := fun _ hs => hs)
    (hrelease := fun _ d e _ hr => releaseReset_legal d e hr)

end Sys2Proof.Machine
end

section
/-! The statements about the access interface: which accesses the decoder rejects and as what, what a malformed access
and a read leave unchanged, and the step of a decoded access and of an idle tick. -/

namespace Sys2Proof

/-! ### Admitted accesses -/

/-- The low two bits of an offset are zero at the multiples of 4, and nowhere else (20 R51). -/
theorem alignedOffset_iff (off : Byte) : alignedOffset off = true ↔ off.toNat % 4 = 0 := by
  have hlow : (off &&& 3#8).toNat = off.toNat % 4 := by
    rw [BitVec.toNat_and]
    exact Nat.and_two_pow_sub_one_eq_mod off.toNat 2
  rw [alignedOffset, beq_iff_eq, ← BitVec.toNat_inj, hlow]
  rfl

/-- An admitted access is 32 bits wide and at a multiple of 4 (20 R51). -/
theorem Access.admitted_iff (a : Access) : a.admitted = true ↔ a.size = .b32 ∧ a.off.toNat % 4 = 0 := by
  rw [Access.admitted, Bool.and_eq_true, beq_iff_eq, alignedOffset_iff]

/-! ### What the decoder rejects -/

/-- Every access goes through the check of its shape before anything else (60 R225). -/
theorem decode_eq_checkShape (a : Access) : ∃ q, decode a = checkShape a.size a.off q := by
  cases a <;> exact ⟨_, rfl⟩

/-- An access of the wrong width or at the wrong offset is rejected as malformed (20 R52). -/
theorem decode_of_not_admitted {a : Access} (h : a.admitted = false) :
    ∃ r, decode a = .error r ∧ r.isBusError = true := by
  obtain ⟨q, hq⟩ := decode_eq_checkShape a
  by_cases hsize : a.size = .b32
  · have hoff : alignedOffset a.off = false := by simpa [Access.admitted, hsize] using h
    exact ⟨.misaligned, by simp [hq, checkShape, hsize, hoff], rfl⟩
  · exact ⟨.misSized, by simp [hq, checkShape, hsize], rfl⟩

/-- A command word that is no command is illegal, not malformed (30 R74 to R76). -/
theorem isBusError_of_decodeCommand {w : Word} {r : Reject} (h : decodeCommand w = .error r) :
    r.isBusError = false := by
  unfold decodeCommand at h
  split at h
  · cases h; rfl
  split at h
  · cases h; rfl
  split at h <;> cases h
  rfl

/-- A row of format M selects every aligned access but the write to CMD (30 R78). -/
theorem decodeRegister_ok {isWrite : Bool} {off : Byte} (hoff : alignedOffset off = true)
    (hcmd : isWrite = true → off ≠ 0#8) (v : Word) : ∃ i, decodeRegister (descriptor isWrite off) v = .ok i := by
  have haligned : descriptor isWrite off &&& 3#9 = 0#9 := by
    change (BitVec.ofBool isWrite ++ off) &&& (0#1 ++ 3#8) = 0#1 ++ 0#8
    rw [BitVec.and_append, beq_iff_eq.mp hoff, BitVec.and_zero]
  have hnotCmd : descriptor isWrite off ≠ descriptor true 0#8 := by
    intro h
    have hzero := congrArg descriptorOffset h
    simp only [descriptorOffset_descriptor] at hzero
    subst hzero
    cases isWrite with
    | false => exact absurd h (by decide)
    | true => exact hcmd rfl rfl
  obtain ⟨f, hf⟩ := Option.isSome_iff_exists.mp (decodeRegister_covers _ haligned hnotCmd)
  exact ⟨_, by rw [decodeRegister, hf]⟩

/-- An aligned 32-bit read is a format M access (30 R77). -/
theorem decode_read_aligned {off : Byte} (hoff : alignedOffset off = true) :
    decode (.read .b32 off) = decodeRegister (descriptor false off) 0#32 :=
  checkShape_admitted hoff _

/-- An aligned 32-bit write to another register than CMD is a format M access (30 R70, R77). -/
theorem decode_write_aligned {off : Byte} (hoff : alignedOffset off = true) (hcmd : off ≠ 0#8) (v : Word) :
    decode (.write .b32 off v) = decodeRegister (descriptor true off) v := by
  rw [decode, checkShape_admitted hoff, if_neg hcmd]

/-- An admitted access that is rejected is an illegal command word (30 R78): the rows cover all the others. -/
theorem isBusError_of_admitted {a : Access} {r : Reject} (ha : a.admitted = true) (h : decode a = .error r) :
    r.isBusError = false := by
  rw [Access.admitted, Bool.and_eq_true, beq_iff_eq] at ha
  obtain ⟨hsize, hoff⟩ := ha
  cases a with
  | read sz off =>
    obtain rfl : sz = .b32 := hsize
    obtain ⟨i, hi⟩ := decodeRegister_ok (isWrite := false) hoff nofun 0#32
    cases h.symm.trans ((decode_read_aligned hoff).trans hi)
  | write sz off v =>
    obtain rfl : sz = .b32 := hsize
    by_cases hcmd : off = 0#8
    · subst hcmd
      exact isBusError_of_decodeCommand (decode_command v ▸ h)
    · obtain ⟨i, hi⟩ := decodeRegister_ok (isWrite := true) hoff (fun _ => hcmd) v
      cases h.symm.trans ((decode_write_aligned hoff hcmd v).trans hi)

/-- Settles O3: `decode_of_not_admitted` is one direction, `isBusError_of_admitted` the other. -/
theorem admittedAccessNeverBusError : Obligations.AdmittedAccessNeverBusError := by
  intro a
  refine ⟨decode_of_not_admitted, fun r h => ⟨fun hbus => ?_, fun hshape => ?_⟩⟩
  · by_contra hne
    rw [isBusError_of_admitted (Bool.eq_true_of_not_eq_false hne) h] at hbus
    cases hbus
  · obtain ⟨r', h', hbus⟩ := decode_of_not_admitted hshape
    obtain rfl : r = r' := Except.error.inj (h.symm.trans h')
    exact hbus

end Sys2Proof

namespace Sys2Proof.Machine

/-! ### The step of an access and of an idle tick -/

/-- An access that is no instruction, with reset not asserted. -/
theorem step_reject {s : State} {a : Access} {r : Reject} {rest : List Event} (h : s.agenda = .access a :: rest)
    (hr : s.resetAsserted = false) (hd : decode a = .error r) :
    step s = rejectAccess r a { s with agenda := rest } :=
  (step_cons h).trans (performAccess_error (s := { s with agenda := rest }) hr hd)

/-- BUSERR is an error response that leaves everything but the model's counter of such reads (60 R223). -/
theorem rejectAccess_busError {r : Reject} (hbus : r.isBusError = true) (a : Access) (s : State) :
    ∃ (q : Response) (n : Nat), rejectAccess r a s = .next { s with bus := q, errReads := n } ∧
      (q = .writeError ∨ ∃ v, q = .readError v) := by
  rcases rejectAccess_cases (r := r) (a := a) (s := s) rfl with ⟨_, e | e⟩ | ⟨hnot, _⟩ | ⟨hnot, _⟩
  · exact ⟨_, _, e, .inr ⟨_, rfl⟩⟩
  · exact ⟨.writeError, s.errReads, e, .inl rfl⟩
  all_goals exact absurd (hbus.symm.trans hnot) nofun

/-- Settles O8: an access of the wrong shape is not admitted, so its step is `rejectAccess_busError`. -/
theorem malformedAccessChangesNothing : Obligations.MalformedAccessChangesNothing := by
  intro s a rest hag hr hshape
  have hnot : a.admitted = false := by
    rw [← Bool.not_eq_true, Access.admitted_iff]
    rintro ⟨hsize, hoff⟩
    exact hshape.elim (· hsize) (· hoff)
  obtain ⟨r, hd, hbus⟩ := decode_of_not_admitted hnot
  rw [step_reject hag hr hd]
  exact rejectAccess_busError hbus a { s with agenda := rest }

/-- Settles O7: this is `step_exec`. -/
theorem stepRunsDecodedInstruction : Obligations.StepRunsDecodedInstruction := fun _ _ _ _ => step_exec

/-- No read is guarded by the busy rule (60 R221). -/
theorem isGuarded_of_isRead {i : Instr} (h : i.isRead = true) : i.isGuarded = false := by
  revert h
  cases i <;> simp [Instr.isRead, Instr.isGuarded]

/-- A read hands back a value, busy or not (20 R54). -/
theorem exec_read {i : Instr} (h : i.isRead = true) (s : State) : ∃ v, exec i s = readReg v s := by
  rcases exec_cases i s with ⟨hguarded, _⟩ | ⟨_, hread⟩ | ⟨_, hnot, _⟩
  · exact absurd (hguarded.symm.trans (isGuarded_of_isRead h)) nofun
  · exact hread
  · exact absurd (h.symm.trans hnot) nofun

/-- Settles O13: every read is a `readReg`, whose answer differs from the state in `bus` alone. -/
theorem readsHaveNoSideEffect : Obligations.ReadsHaveNoSideEffect := fun _ s h => exec_read h s

/-- Settles O36: time advances, and the idle sequencer answers that state. -/
theorem idleTickTakesNoStep : Obligations.IdleTickTakesNoStep := by
  intro s e rest hag hr hidle
  rw [step_tick hag hr]
  exact sequencerStep_idle (u := ({ s with agenda := rest } : State).advance e) hidle

end Sys2Proof.Machine
end

section
/-! The statements about the encoding: the command words, the rows of format M, and the two round trips between an
instruction and its access. -/

namespace Sys2Proof

/-! ### Format C: the command words -/

/-- The command words of 30 R82, each with its command. -/
def commandTable : List (Word × Instr) :=
  [(0x00000000#32, .nop), (0x00000001#32, .lineIn), (0x00000002#32, .lineOut .low), (0x00000102#32, .lineOut .high),
   (0x00000003#32, .lineSet .low), (0x00000103#32, .lineSet .high), (0x00000004#32, .delay), (0x00000005#32, .sample),
   (0x00000006#32, .decodeA), (0x00000106#32, .decodeB), (0x00000007#32, .clrerr)]

/-- Only a word whose reserved fields are zero is a command, so OP and P determine it (30 R75). -/
theorem eq_commandWord_of_decodeCommand {w : Word} {i : Instr} (h : decodeCommand w = .ok i) :
    w = commandWord (cmdOp w) (cmdP w) := by
  unfold decodeCommand at h
  split at h
  · cases h
  split at h
  · cases h
  next hreserved =>
    obtain ⟨hZ1, hZ2⟩ := not_or.mp hreserved
    exact eq_commandWord w (not_not.mp hZ1) (not_not.mp hZ2)

/-- Of the 32 words with zero reserved fields, those that decode are in the table, with the command they decode to. -/
theorem commandWord_mem_commandTable :
    ∀ (op : BitVec 4) (p : Bool), ∀ i ∈ (decodeCommand (commandWord op p)).toOption,
      (commandWord op p, i) ∈ commandTable := by
  decide

/-- Each word of the table decodes to its command (30 R82). -/
theorem decodeCommand_of_mem_commandTable : ∀ e ∈ commandTable, decodeCommand e.1 = .ok e.2 := by
  decide

/-- A word decodes to a command exactly when the table pairs the two (30 R72, R82). -/
theorem decodeCommand_eq_ok_iff {w : Word} {i : Instr} : decodeCommand w = .ok i ↔ (w, i) ∈ commandTable := by
  constructor
  · intro h
    have hword := eq_commandWord_of_decodeCommand h
    have hmem := commandWord_mem_commandTable (cmdOp w) (cmdP w) i
    rw [← hword, h] at hmem
    exact hmem rfl
  · exact decodeCommand_of_mem_commandTable (w, i)

/-- Settles O5: the statement's list is `commandTable`, so this is `decodeCommand_eq_ok_iff`. -/
theorem legalCommandWords : Obligations.LegalCommandWords := fun _ _ => decodeCommand_eq_ok_iff

/-- The encoder gives each command of the table the write of its word to CMD. -/
theorem encode_of_mem_commandTable :
    ∀ e ∈ commandTable, encode e.2 = .write .b32 0#8 e.1 ∧ e.2.wellFormed = true := by
  decide

/-! ### Format M: the rows -/

/-- Every row fixes bits 1:0 at zero. -/
theorem regRows_low_bits : ∀ r ∈ regRows, r.mask &&& 3#9 = 3#9 ∧ r.pattern &&& 3#9 = 0#9 := by
  decide

/-- A row selects aligned descriptors only (30 R78). -/
theorem RegRow.aligned_of_selects {r : RegRow} (hr : r ∈ regRows) {a : BitVec 9} (h : r.selects a = true) :
    a &&& 3#9 = 0#9 := by
  obtain ⟨hmask, hpattern⟩ := regRows_low_bits r hr
  have hselects : a &&& r.mask = r.pattern := beq_iff_eq.mp h
  calc a &&& 3#9 = a &&& r.mask &&& 3#9 := by rw [BitVec.and_assoc, hmask]
    _ = 0#9 := by rw [hselects, hpattern]

/-- One row selects an aligned descriptor, but for 0x100, which none selects (30 R78). -/
theorem count_selects_of_aligned :
    ∀ a : BitVec 9, a &&& 3#9 = 0#9 →
      (regRows.filter fun r => r.selects a).length = if a ≠ 0x100#9 then 1 else 0 := by
  decide

/-- Settles O4: an aligned descriptor is `count_selects_of_aligned`; no row selects another. -/
theorem registerRowsPartition : Obligations.RegisterRowsPartition := by
  intro a
  by_cases haligned : a &&& 3#9 = 0#9
  · simpa only [haligned, true_and] using count_selects_of_aligned a haligned
  · have hnone : (regRows.filter fun r => r.selects a) = [] :=
      List.filter_eq_nil_iff.mpr fun _ hr hsel => haligned (RegRow.aligned_of_selects hr hsel)
    rw [hnone, if_neg fun h => haligned h.1]
    rfl

/-- A format M access decodes through the row that selects its descriptor. -/
theorem regForm_of_decodeRegister {isWrite : Bool} {off : Byte} {v : Word} {i : Instr}
    (h : decodeRegister (descriptor isWrite off) v = .ok i) :
    ∃ f, regForm (descriptor isWrite off) = some f ∧ f.instr off v = i := by
  unfold decodeRegister at h
  split at h
  next f hf =>
    rw [descriptorOffset_descriptor] at h
    exact ⟨f, hf, Except.ok.inj h⟩
  · cases h

/-- A row that selects a read names a well-formed instruction whose access is that read (30 R78). -/
theorem encode_of_regForm_read :
    ∀ off : Byte, alignedOffset off = true → ∀ f ∈ regForm (descriptor false off),
      encode (f.instr off 0#32) = .read .b32 off ∧ (f.instr off 0#32).wellFormed = true := by
  decide

/-- The rows that select a write: one each for ARG, BREAK_THR and BIT_THR, and those of the ignored offsets (30 R78). -/
theorem regForm_write_cases :
    ∀ off : Byte, alignedOffset off = true → ∀ f ∈ regForm (descriptor true off),
      (f = .wrArg ∧ off = 0x0C#8) ∨ (f = .wrBrk ∧ off = 0x10#8) ∨ (f = .wrBit ∧ off = 0x14#8) ∨
        (f = .wrIgn ∧ ignoredOffset off = true) := by
  decide

/-- A row that selects a write names, for any data, a well-formed instruction whose access is that write (30 R78). -/
theorem encode_of_regForm_write {off : Byte} {f : RegForm} (hoff : alignedOffset off = true)
    (h : regForm (descriptor true off) = some f) (v : Word) :
    encode (f.instr off v) = .write .b32 off v ∧ (f.instr off v).wellFormed = true := by
  obtain ⟨rfl, rfl⟩ | ⟨rfl, rfl⟩ | ⟨rfl, rfl⟩ | ⟨rfl, hign⟩ := regForm_write_cases off hoff f h
  · exact ⟨rfl, rfl⟩
  · exact ⟨rfl, rfl⟩
  · exact ⟨rfl, rfl⟩
  · exact ⟨rfl, hign⟩

/-- A 32-bit read of a reserved offset is RD.RSVD (30 R78, 44 R213). -/
theorem decode_read_reserved {off : Byte} (h : reservedOffset off = true) :
    decode (.read .b32 off) = .ok (.rdRsvd off) := by
  have haligned : alignedOffset off = true := (Bool.and_eq_true_iff.mp h).1
  rw [decode_read_aligned haligned, decodeRegister, regForm_reserved off h, descriptorOffset_descriptor]
  rfl

/-- A 32-bit write to an ignored offset is WR.IGN, with its data (30 R78, 44 R212). -/
theorem decode_write_ignored {off : Byte} (h : ignoredOffset off = true) (v : Word) :
    decode (.write .b32 off v) = .ok (.wrIgn off v) := by
  have haligned : alignedOffset off = true := (Bool.and_eq_true_iff.mp h).1
  have hcmd : off ≠ 0#8 := by
    rintro rfl
    cases h
  rw [decode_write_aligned haligned hcmd, decodeRegister, regForm_ignored off h, descriptorOffset_descriptor]
  rfl

/-! ### The round trips -/

/-- Settles O1: a command or a fixed register is one access, which the decoder evaluates; SEG[k], a reserved offset and
an ignored offset have their rows. -/
theorem decodeOfEncode : Obligations.DecodeOfEncode := by
  intro i hwf
  cases i with
  | nop | lineIn | delay | sample | decodeA | decodeB | clrerr => rfl
  | lineOut p | lineSet p => cases p <;> rfl
  | rdCmd | rdStatus | rdTicks | rdArg | rdBrk | rdBit | rdLine | rdRaw | rdCks | rdHum | rdTemp | rdSegcap => rfl
  | wrArg v | wrBrk v | wrBit v => rfl
  | rdSeg k => exact Machine.decode_read_segOffset k
  | rdRsvd off => exact decode_read_reserved hwf
  | wrIgn off v => exact decode_write_ignored hwf v

/-- Settles O2: the access has the right shape, and its content is a word of the table of commands or a descriptor that
a row selects; the encoder gives both back. -/
theorem encodeOfDecode : Obligations.EncodeOfDecode := by
  intro a i h
  cases a with
  | read sz off =>
    obtain ⟨rfl, hoff, hreg⟩ := checkShape_ok h
    obtain ⟨f, hf, rfl⟩ := regForm_of_decodeRegister hreg
    exact encode_of_regForm_read off hoff f hf
  | write sz off v =>
    obtain ⟨rfl, hoff, hcontent⟩ := checkShape_ok h
    split at hcontent
    next hcmd =>
      subst hcmd
      exact encode_of_mem_commandTable (v, i) (decodeCommand_eq_ok_iff.mp hcontent)
    · obtain ⟨f, hf, rfl⟩ := regForm_of_decodeRegister hcontent
      exact encode_of_regForm_write hoff hf v

/-- Settles O6: each access is evaluated. -/
theorem specWordsDecode : Obligations.SpecWordsDecode := ⟨rfl, rfl, rfl, rfl, rfl, rfl, rfl⟩

end Sys2Proof
end

section
/-! The statements about time: the timing invariant, the counter and the instants, and DELAY. -/

namespace Sys2Proof.Machine

/-! ### What a tick leaves -/

/-- A tick, by what the sequencer's step does to the state in which time has advanced: nothing, the DELAY step, the
first segment, a sample without a change of level, or the end of a segment (40 R104, 42 R142 to R144). -/
theorem tick_outcome {e : Level} {s t : State} (hr : s.resetAsserted = false) (h : tick e s = .next t) :
    (s.act = .idle ∧ t = s.advance e) ∨
      (s.act = .delay ∧ t = (s.advance e).delayStep) ∨
      (s.act = .waitFall ∧ t = { s.advance e with sstart := (s.advance e).cnt, act := .low }) ∨
      (s.act.sampling = true ∧ LevelKept (s.advance e) t) ∨
      ∃ next, (next = .low ∨ next = .high) ∧ SegmentEnded next (s.advance e) t := by
  rcases tick_inv hr h with hidle | hdelay | ⟨ha, rfl⟩ | ⟨ha, h⟩ | ⟨ha, h⟩
  · exact .inl hidle
  · exact .inr (.inl hdelay)
  · rcases waitFallStep_cases (s.advance e) with ⟨_, hstep⟩ | ⟨_, hkept⟩
    · exact .inr (.inr (.inl ⟨ha, hstep⟩))
    · exact .inr (.inr (.inr (.inl ⟨by rw [ha]; rfl, hkept⟩)))
  · rcases lowStep_inv h with ⟨_, hended⟩ | ⟨_, hkept⟩
    · exact .inr (.inr (.inr (.inr ⟨.high, .inr rfl, hended⟩)))
    · exact .inr (.inr (.inr (.inl ⟨by rw [ha]; rfl, hkept⟩)))
  · rcases highStep_inv h with ⟨_, hended⟩ | ⟨_, hkept⟩
    · exact .inr (.inr (.inr (.inr ⟨.low, .inl rfl, hended⟩)))
    · exact .inr (.inr (.inr (.inl ⟨by rw [ha]; rfl, hkept⟩)))

/-! ### The timing invariant -/

/-- An idle block is timed: no operation runs. -/
theorem timed_of_idle {s : State} (hact : s.act = .idle) : s.Timed := by
  simp [State.Timed, hact]

/-- A segment that starts at this instant is timed: its elapsed time is 0 (42 R143, R144). -/
theorem timed_of_segment_start {s : State} (hact : s.act = .low ∨ s.act = .high) (hstart : s.sstart = s.cnt) :
    s.Timed := by
  have helapsed : s.elapsed = 0#32 := by rw [State.elapsed, hstart, wrapDiff, BitVec.sub_self]
  rcases hact with hact | hact <;> simp [State.Timed, hact, helapsed]

/-- A SAMPLE that a sample without a change of level leaves running has waited less than BREAK_THR (42 R146). -/
theorem LevelKept.timed {u t : State} (h : LevelKept u t) (hact : u.act.sampling = true) : t.Timed := by
  have hdelay : u.act ≠ .delay := fun h => by rw [h] at hact; cases hact
  rcases h with ⟨_, rfl⟩ | ⟨hlt, rfl⟩
  · exact timed_of_idle rfl
  · exact ⟨fun h => absurd h hdelay, fun _ => .inr hlt, fun _ => .inr hlt⟩

/-- The end of a segment starts the next one at this instant, or ends the SAMPLE (42 R143, R144, R147). -/
theorem SegmentEnded.timed {next : Act} {u t : State} (h : SegmentEnded next u t)
    (hnext : next = .low ∨ next = .high) : t.Timed := by
  rcases h with ⟨_, rfl⟩ | ⟨_, rfl⟩
  · exact timed_of_idle rfl
  · exact timed_of_segment_start hnext rfl

/-- The DELAY step polls the counter, and the DELAY goes on or ends (40 R104). -/
theorem delayStep_timed {u : State} (hact : u.act = .delay) : u.delayStep.Timed := by
  by_cases hle : u.arg ≤ satAdd u.dacc (wrapDiff u.cnt u.dlast)
  · exact timed_of_idle (if_pos hle)
  · have hgoesOn : u.delayStep.act = .delay := (if_neg hle).trans hact
    exact ⟨fun _ => rfl, by simp [hgoesOn], by simp [hgoesOn]⟩

/-- A tick leaves a timed state, whatever it started from: each step of the sequencer polls the counter, starts a
segment or checks the threshold. -/
theorem tick_timed {e : Level} {s t : State} (hr : s.resetAsserted = false) (h : tick e s = .next t) : t.Timed := by
  rcases tick_outcome hr h with ⟨ha, rfl⟩ | ⟨ha, rfl⟩ | ⟨_, rfl⟩ | ⟨ha, hkept⟩ | ⟨next, hnext, hended⟩
  · exact timed_of_idle ha
  · exact delayStep_timed ha
  · exact timed_of_segment_start (.inl rfl) rfl
  · exact hkept.timed ha
  · exact hended.timed hnext

/-- A guarded write that an idle block performs leaves a timed state: DELAY sets DLAST to CNT (40 R103), SAMPLE sets
SSTART to CNT + 1 (42 R140), and no other starts an operation. -/
theorem effectOf_timed {s : State} (i : Instr) (hb : s.busy = false) : (effectOf i s).Timed := by
  rcases effectOf_act i hb with hidle | rfl | rfl
  · exact timed_of_idle hidle
  · simp [State.Timed, effectOf]
  · simp [State.Timed, effectOf]

/-- The release of reset leaves an idle block (70 R261). -/
theorem releaseReset_timed {s : State} (d : Config.ResetDraws) (e : Level) (hr : s.resetAsserted = true) :
    (s.releaseReset d e).Timed := by
  rw [State.releaseReset, if_pos hr]
  exact timed_of_idle rfl

/-- Settles O48, event by event: a tick, a performed write and the release of reset establish the invariant, and the
other events leave what it speaks of. -/
theorem timedIsKept : Obligations.TimedIsKept :=
  step_keeps State.Timed
    (hfree := fun _ _ _ _ _ _ hs => hs)
    (htick := fun _ _ _ _ hr h => tick_timed hr h)
    (henv := fun _ _ hs => hs)
    (heffect := fun _ i _ hb _ => effectOf_timed i hb)
    (hassert := fun _ hs => hs)
    (hrelease := fun _ d e _ hr => releaseReset_timed d e hr)

/-! ### The counter and the instants -/

/-- `t` is at the instant of `s`. -/
def SameInstant (s t : State) : Prop := t.cnt = s.cnt ∧ t.instant = s.instant

/-- `t` is one tick instant after `s` (40 R100). -/
def OneTickLater (s t : State) : Prop := t.cnt = s.cnt + 1#32 ∧ t.instant = s.instant + 1

theorem LevelKept.sameInstant {u t : State} (h : LevelKept u t) : SameInstant u t := by
  rcases h with ⟨_, rfl⟩ | ⟨_, rfl⟩ <;> exact ⟨rfl, rfl⟩

theorem SegmentEnded.sameInstant {next : Act} {u t : State} (h : SegmentEnded next u t) : SameInstant u t := by
  rcases h with ⟨_, rfl⟩ | ⟨_, rfl⟩ <;> exact ⟨rfl, rfl⟩

/-- At a tick time advances by one, and the sequencer's step takes no time of its own (20 R58). -/
theorem tick_oneTickLater {e : Level} {s t : State} (hr : s.resetAsserted = false) (h : tick e s = .next t) :
    OneTickLater s t := by
  suffices SameInstant (s.advance e) t from this
  rcases tick_outcome hr h with ⟨_, rfl⟩ | ⟨_, rfl⟩ | ⟨_, rfl⟩ | ⟨_, hkept⟩ | ⟨_, _, hended⟩
  · exact ⟨rfl, rfl⟩
  · exact ⟨rfl, rfl⟩
  · exact ⟨rfl, rfl⟩
  · exact hkept.sameInstant
  · exact hended.sameInstant

/-- A host access takes no time (20 R58). -/
theorem performAccess_sameInstant {a : Access} {s t : State} (h : performAccess a s = .next t) : SameInstant s t := by
  obtain ⟨_, ⟨r, n, rfl⟩ | ⟨_, rfl⟩ | ⟨_, rfl⟩ | ⟨_, i, _, _, rfl⟩⟩ := performAccess_effect h
  · exact ⟨rfl, rfl⟩
  · exact ⟨rfl, rfl⟩
  · exact ⟨rfl, rfl⟩
  · obtain ⟨hcnt, hinstant, _⟩ := effectOf_frame i s
    exact ⟨hcnt, hinstant⟩

/-- A step takes one tick instant or no time, unless it takes a release of reset. -/
theorem step_time {s t : State} (h : step s = .next t) :
    OneTickLater s t ∨ SameInstant s t ∨ ∃ d e rest, s.agenda = .resetRelease d e :: rest := by
  obtain ⟨rest, ⟨e, _, h⟩ | ⟨a, _, h⟩ | ⟨_, rfl⟩ | ⟨d, e, hag, _⟩⟩ := step_inv h
  · cases hr : s.resetAsserted with
    | false => exact .inl (tick_oneTickLater (s := { s with agenda := rest }) hr h)
    | true =>
      rw [tick_reset (s := { s with agenda := rest }) hr] at h
      cases h
      exact .inr (.inl ⟨rfl, rfl⟩)
  · exact .inr (.inl (performAccess_sameInstant (s := { s with agenda := rest }) h))
  · exact .inr (.inl ⟨rfl, rfl⟩)
  · exact .inr (.inr ⟨d, e, rest, hag⟩)

/-- A tick raises CNT and n together, so that CNT = TICK_RESET + n goes on. -/
theorem OneTickLater.cnt_eq {s t : State} {n : Nat} (h : OneTickLater s t)
    (hcnt : s.cnt = BitVec.ofNat 32 (n + s.instant)) : t.cnt = BitVec.ofNat 32 (n + t.instant) := by
  obtain ⟨hc, hi⟩ := h
  rw [hc, hi, hcnt]
  exact (BitVec.ofNat_add (n + s.instant) 1).symm

/-- Settles O33: the relation by `step_time`, and what each event does to n by the event. -/
theorem counterFollowsTime : Obligations.CounterFollowsTime := by
  intro s t h
  refine ⟨fun n hcnt hno => ?_, fun e rest hag hr => ?_, fun a rest hag => ?_, fun d e rest hag hr => ?_⟩
  · rcases step_time h with hlater | ⟨hc, hi⟩ | ⟨d, e, rest, hag⟩
    · exact hlater.cnt_eq hcnt
    · rw [hc, hi, hcnt]
    · exact absurd hag (hno d e rest)
  · rw [step_cons hag] at h
    exact (tick_oneTickLater (s := { s with agenda := rest }) hr h).2
  · rw [step_cons hag] at h
    exact (performAccess_sameInstant h).2
  · rw [step_cons hag, perform, State.releaseReset, if_pos hr] at h
    cases h
    exact ⟨rfl, rfl⟩

/-- Settles O34: the first reading cancels. -/
theorem wrappingDifferenceIsElapsed : Obligations.WrappingDifferenceIsElapsed := by
  intro c m
  rw [wrapDiff, add_sub_cancel_left, BitVec.toNat_ofNat]

/-- Settles O16: each read hands back its register. -/
theorem plainRegisterReads : Obligations.PlainRegisterReads := fun _ => ⟨rfl, rfl, rfl, rfl, rfl, rfl, rfl⟩

/-! ### DELAY -/

/-- Settles O24: an idle block performs a guarded write. -/
theorem delayAndSampleAcceptance : Obligations.DelayAndSampleAcceptance := fun _ hb =>
  ⟨guardedWrite_idle (f := State.startDelay) hb, guardedWrite_idle (f := State.startSample) hb⟩

/-- The saturating sum as a number (40 R105). -/
theorem satAdd_toNat (a b : Word) : (satAdd a b).toNat = min (a.toNat + b.toNat) (2 ^ 32 - 1) := by
  rw [satAdd, BitVec.toNat_ofNat]
  exact Nat.mod_eq_of_lt (by omega)

/-- Settles O35: DACC becomes a saturating sum of itself and the elapsed count. -/
theorem saturatingSum : Obligations.SaturatingSum := by
  refine ⟨satAdd_toNat, fun s => ?_⟩
  have hlt := s.dacc.isLt
  have hacc : s.delayStep.dacc.toNat = min (s.dacc.toNat + (wrapDiff s.cnt s.dlast).toNat) (2 ^ 32 - 1) :=
    satAdd_toNat _ _
  omega

/-- Settles O37: `acc` is the sum that the DELAY step puts in DACC. -/
theorem delayStepEachTick : Obligations.DelayStepEachTick := by
  intro s e rest acc hag hr hact hacc
  have hsum : acc = satAdd s.dacc (wrapDiff (s.cnt + 1#32) s.dlast) :=
    BitVec.eq_of_toNat_eq (hacc.trans (satAdd_toNat _ _).symm)
  rw [step_tick hag hr, sequencerStep_delay (u := ({ s with agenda := rest } : State).advance e) hact, hsum]
  simp [State.delayStep, State.advance, BitVec.le_def, hact]

/-- What a DELAY with ARG = m shows k tick instants after the one that accepted it (40 R106). -/
structure DelayedFor (m k : Nat) (s : State) : Prop where
  arg : s.arg.toNat = m
  outOfReset : s.resetAsserted = false
  act : s.act = if k < max m 1 then .delay else .idle
  dacc : s.dacc.toNat = min k (max m 1)
  polled : s.act = .delay → s.dlast = s.cnt

/-- DELAY starts at age 0 (40 R103). -/
theorem delayedFor_startDelay {s : State} (hr : s.resetAsserted = false) :
    DelayedFor s.arg.toNat 0 (s.startDelay.respond .done) where
  arg := rfl
  outOfReset := hr
  act := by simp
  dacc := by simp
  polled := fun _ => rfl

/-- A tick while the DELAY runs adds 1 to DACC: the counter was polled one instant before (40 R104). -/
theorem DelayedFor.step_running {m k : Nat} {s : State} {e : Level} {rest : List Event} (h : DelayedFor m k s)
    (hk : k < max m 1) (hag : s.agenda = .tick e :: rest) :
    ∃ t, step s = .next t ∧ t.agenda = rest ∧ DelayedFor m (k + 1) t := by
  have harg := h.arg
  have hdacc := h.dacc
  have hlt := s.arg.isLt
  have hact : s.act = .delay := by rw [h.act, if_pos hk]
  have hone : (s.cnt + 1#32 - s.dlast).toNat = 1 := by
    rw [h.polled hact, add_sub_cancel_left]
    rfl
  have hacc : (BitVec.ofNat 32 (k + 1)).toNat = k + 1 := by
    rw [BitVec.toNat_ofNat]
    omega
  exact ⟨_, delayStepEachTick s e rest (BitVec.ofNat 32 (k + 1)) hag h.outOfReset hact (by omega), rfl,
    { arg := harg
      outOfReset := h.outOfReset
      act := by
        rw [hacc, harg]
        by_cases hend : m ≤ k + 1
        · rw [if_pos hend, if_neg (by omega)]
        · rw [if_neg hend, if_pos (by omega)]
      dacc := by
        rw [hacc]
        omega
      polled := fun _ => rfl }⟩

/-- A tick after the DELAY has ended leaves its DACC (20 R58). -/
theorem DelayedFor.step_ended {m k : Nat} {s : State} {e : Level} {rest : List Event} (h : DelayedFor m k s)
    (hk : ¬ k < max m 1) (hag : s.agenda = .tick e :: rest) :
    ∃ t, step s = .next t ∧ t.agenda = rest ∧ DelayedFor m (k + 1) t := by
  have hdacc := h.dacc
  have hact : s.act = .idle := by rw [h.act, if_neg hk]
  exact ⟨_, idleTickTakesNoStep s e rest hag h.outOfReset hact, rfl,
    { arg := h.arg
      outOfReset := h.outOfReset
      act := by rw [if_neg (by omega)]; exact hact
      dacc := (show s.dacc.toNat = _ by omega)
      polled := fun hdelay => by simp [hact] at hdelay }⟩

/-- At every tick the DELAY is one instant older, while it runs and after it has ended. -/
theorem DelayedFor.step {m k : Nat} {s : State} {e : Level} {rest : List Event} (h : DelayedFor m k s)
    (hag : s.agenda = .tick e :: rest) : ∃ t, step s = .next t ∧ t.agenda = rest ∧ DelayedFor m (k + 1) t := by
  by_cases hk : k < max m 1
  · exact h.step_running hk hag
  · exact h.step_ended hk hag

/-- After the ticks of any waveform the DELAY is older by their number. -/
theorem DelayedFor.run_ticks {m : Nat} (es : List Level) {k : Nat} {s : State} (h : DelayedFor m k s)
    (hag : s.agenda = ticks es) :
    ∃ t, run es.length s = .next t ∧ t.agenda = [] ∧ DelayedFor m (k + es.length) t := by
  induction es generalizing k s with
  | nil => exact ⟨s, run_zero s, hag, h⟩
  | cons e es ih =>
    obtain ⟨u, hstep, hu, hage⟩ := h.step hag
    obtain ⟨t, hrun, ht, hage⟩ := ih hage hu
    refine ⟨t, (run_succ es.length hstep).trans hrun, ht, ?_⟩
    rwa [List.length_cons, Nat.add_comm es.length 1, ← Nat.add_assoc]

/-- Settles O38: the accepting write starts a DELAY of age 0, and its state at age `es.length` is `DelayedFor`. -/
theorem delayLastsItsTicks : Obligations.DelayLastsItsTicks := by
  intro s es hb hr
  have haccept : step { s with agenda := .access (encode .delay) :: ticks es } =
      .next (({ s with agenda := ticks es } : State).startDelay.respond .done) :=
    (step_exec (s := { s with agenda := .access (encode .delay) :: ticks es }) rfl hr
      (decodeOfEncode .delay rfl)).trans (guardedWrite_idle (f := State.startDelay) hb)
  obtain ⟨t, hrun, hag, hage⟩ :=
    (delayedFor_startDelay (s := { s with agenda := ticks es }) hr).run_ticks es rfl
  rw [Nat.zero_add] at hage
  exact ⟨t, (run_succ es.length haccept).trans hrun, hag, hage.act, hage.dacc⟩

end Sys2Proof.Machine
end

section
/-! The statements about the data line: what RD.LINE reads, what the line commands do, and what else leaves the line
alone. -/

namespace Sys2Proof.Machine

/-! ### What a read of LINE shows -/

/-- LINE as a number: OUT in bit 2, DIR in bit 1, the level of the line in bit 0 (41 R124). -/
theorem lineWord_toNat (s : State) :
    s.lineWord.toNat =
      (if s.out = .high then 4 else 0) + (if s.dir = .output then 2 else 0) + (if s.pin = .high then 1 else 0) := by
  unfold State.lineWord
  generalize s.out = out, s.dir = dir, s.pin = pin
  cases out <;> cases dir <;> cases pin <;> rfl

/-- A released line has the external level (41 R120). -/
theorem pin_of_released {s : State} (hdir : s.dir = .input) : s.pin = s.env := by
  simp [State.pin, hdir]

/-- A line driven low is low, whatever the environment does (41 R120). -/
theorem pin_of_driven_low {s : State} (hdir : s.dir = .output) (hout : s.out = .low) : s.pin = .low := by
  simp [State.pin, hdir, hout]

/-- A line driven high is high where the environment does not pull it low (41 R120). -/
theorem pin_of_driven_high {s : State} (hdir : s.dir = .output) (hout : s.out = .high) (henv : s.env = .high) :
    s.pin = .high := by
  simp [State.pin, hdir, hout, henv]

/-- Settles O15: RD.LINE hands back `lineWord`, and its bit 0 is `pin`, which the environment and the latch determine
but for contention. -/
theorem lineReadsThePin : Obligations.LineReadsThePin := fun s =>
  ⟨s.lineWord, s.pin, rfl, lineWord_toNat s, pin_of_released, pin_of_driven_low, pin_of_driven_high⟩

/-! ### What moves the line -/

/-- Settles O22: an idle block performs a guarded write. -/
theorem lineCommands : Obligations.LineCommands := fun _ p hb =>
  ⟨guardedWrite_idle (f := State.releaseLine) hb, guardedWrite_idle (f := State.driveLine p) hb,
    guardedWrite_idle (f := State.setLatch p) hb⟩

/-- `t` drives the line as `s` does: same direction, same latch. -/
def SameLine (s t : State) : Prop := t.dir = s.dir ∧ t.out = s.out

theorem LevelKept.sameLine {u t : State} (h : LevelKept u t) : SameLine u t := by
  rcases h with ⟨_, rfl⟩ | ⟨_, rfl⟩ <;> exact ⟨rfl, rfl⟩

theorem SegmentEnded.sameLine {next : Act} {u t : State} (h : SegmentEnded next u t) : SameLine u t := by
  rcases h with ⟨_, rfl⟩ | ⟨_, rfl⟩ <;> exact ⟨rfl, rfl⟩

/-- No tick moves the line, under reset or not: the sequencer only samples it (41 R128). -/
theorem tick_sameLine {e : Level} {s t : State} (h : tick e s = .next t) : SameLine s t := by
  cases hr : s.resetAsserted with
  | true =>
    rw [tick_reset hr] at h
    cases h
    exact ⟨rfl, rfl⟩
  | false =>
    suffices SameLine (s.advance e) t from this
    rcases tick_outcome hr h with ⟨_, rfl⟩ | ⟨_, rfl⟩ | ⟨_, rfl⟩ | ⟨_, hkept⟩ | ⟨_, _, hended⟩
    · exact ⟨rfl, rfl⟩
    · exact ⟨rfl, rfl⟩
    · exact ⟨rfl, rfl⟩
    · exact hkept.sameLine
    · exact hended.sameLine

/-- A decode works on the log and the result registers alone (43 R170). -/
theorem decodeCore_sameLine (m : SensorModel) (s : State) : SameLine s (s.decodeCore m) :=
  have hframe := decodeCore_frame m s
  ⟨(congrArg State.dir hframe :), (congrArg State.out hframe :)⟩

/-- Of the guarded writes only the line commands move the line (41 R128). -/
theorem effectOf_sameLine {i : Instr} (hline : i.isLineCommand = false) (s : State) : SameLine s (effectOf i s) := by
  cases i with
  | lineIn | lineOut _ | lineSet _ => cases hline
  | decodeA | decodeB => exact decodeCore_sameLine _ s
  | _ => exact ⟨rfl, rfl⟩

/-- An access moves the line only as a line command that an idle block accepts (41 R128). -/
theorem performAccess_line {a : Access} {s t : State} (h : performAccess a s = .next t) :
    SameLine s t ∨ ∃ i, decode a = .ok i ∧ i.isLineCommand = true ∧ s.busy = false := by
  obtain ⟨_, ⟨r, n, rfl⟩ | ⟨_, rfl⟩ | ⟨_, rfl⟩ | ⟨hb, i, hd, _, rfl⟩⟩ := performAccess_effect h
  · exact .inl ⟨rfl, rfl⟩
  · exact .inl ⟨rfl, rfl⟩
  · exact .inl ⟨rfl, rfl⟩
  · cases hline : i.isLineCommand with
    | true => exact .inr ⟨i, hd, hline, hb⟩
    | false => exact .inl (effectOf_sameLine hline s)

/-- Settles O53: of the four kinds of event only a line command accepted while idle and an effective release move the
line. -/
theorem onlyLineCommandsMoveTheLine : Obligations.OnlyLineCommandsMoveTheLine := by
  intro s t h hmoved
  have hnot : ¬ SameLine s t := fun ⟨hdir, hout⟩ => hmoved.elim (· hdir) (· hout)
  obtain ⟨rest, ⟨e, _, h⟩ | ⟨a, hag, h⟩ | ⟨_, rfl⟩ | ⟨d, e, hag, rfl⟩⟩ := step_inv h
  · exact absurd (tick_sameLine h) hnot
  · obtain ⟨i, hd, hline, hb⟩ := (performAccess_line h).resolve_left hnot
    exact .inl ⟨a, rest, i, hag, hd, hline, hb⟩
  · exact absurd ⟨rfl, rfl⟩ hnot
  · cases hr : s.resetAsserted with
    | false => exact absurd (by simp [State.releaseReset, hr, SameLine]) hnot
    | true => exact .inr ⟨d, e, rest, hag, rfl⟩

end Sys2Proof.Machine
end

section
/-! The statements about the sampler, step by step: what each of its steps does, that no legal machine stops, what a
tick of a SAMPLE leaves alone, and that no host access ends a running operation. -/

namespace Sys2Proof.Machine

/-! ### The sampler's steps -/

/-- The break check, with the threshold compared as a number (42 R146). -/
theorem breakCheck_eq (u : State) :
    u.breakCheck =
      if u.breakThr.toNat ≤ (u.cnt - u.sstart).toNat then { u with endReason := .brk, act := .idle } else u :=
  rfl

/-- Within bounds the two ways to write an entry of the log agree. -/
theorem setIfInBounds_eq_set (log : Vector Word 41) {k : Nat} (d : Word) (hk : k < 41) :
    log.setIfInBounds k d = log.set k d hk := by
  ext i hi
  rw [Vector.getElem_set, Vector.getElem_setIfInBounds]

/-- The end of a segment with room in the log, at the 41st entry and before it (42 R145, R147). -/
theorem endSegment_eq (next : Act) (u : State) (hc : u.segcount.toNat < 41) :
    endSegment next u = .next
      { u with seg := u.seg.set u.segcount.toNat (u.cnt - u.sstart) hc, sstart := u.cnt,
               segcount := BitVec.ofNat 6 (u.segcount.toNat + 1),
               endReason := if u.segcount.toNat = 40 then .full else u.endReason,
               act := if u.segcount.toNat = 40 then .idle else next } := by
  obtain ⟨t, ht⟩ := endSegment_next next hc
  rw [ht, ← setIfInBounds_eq_set]
  obtain ⟨_, ⟨hfull, rfl⟩ | ⟨hlt, rfl⟩⟩ := endSegment_inv ht
  · simp [hfull, State.elapsed, wrapDiff]
  · have hcount : u.segcount + 1#6 = BitVec.ofNat 6 (u.segcount.toNat + 1) := by
      apply BitVec.eq_of_toNat_eq
      simp
    simp [hlt.ne, hcount, State.elapsed, wrapDiff]

/-- The LOW and the HIGH step in one: the level `change` ends the segment, the other one is checked for a break
(42 R143, R144). -/
theorem segmentStep_eq (change : Level) (next : Act) (u : State) (hc : u.segcount.toNat < 41) :
    (if u.pin = change then endSegment next u else .next u.breakCheck) = .next (
      if u.pin = change then
        { u with seg := u.seg.set u.segcount.toNat (u.cnt - u.sstart) hc, sstart := u.cnt,
                 segcount := BitVec.ofNat 6 (u.segcount.toNat + 1),
                 endReason := if u.segcount.toNat = 40 then .full else u.endReason,
                 act := if u.segcount.toNat = 40 then .idle else next }
      else if u.breakThr.toNat ≤ (u.cnt - u.sstart).toNat then { u with endReason := .brk, act := .idle }
      else u) := by
  by_cases hpin : u.pin = change
  · rw [if_pos hpin, if_pos hpin, endSegment_eq]
  · rw [if_neg hpin, if_neg hpin, breakCheck_eq]

/-- Settles O39: the step is the WAITFALL step of the state in which time has advanced. -/
theorem Sampler.waitFallStep : Obligations.WaitFallStep := by
  rintro s u e rest hag hr hact rfl
  exact (step_tick hag hr).trans (sequencerStep_waitFall (u := ({ s with agenda := rest } : State).advance e) hact)

/-- Settles O40: the step is the LOW step of the state in which time has advanced, and a high sample ends it. -/
theorem Sampler.lowStep : Obligations.LowStep := by
  rintro s u e rest hc hag hr hact rfl
  rw [step_tick hag hr, sequencerStep_low (u := ({ s with agenda := rest } : State).advance e) hact]
  exact segmentStep_eq .high .high (({ s with agenda := rest } : State).advance e) hc

/-- Settles O41: the step is the HIGH step of the state in which time has advanced, and a low sample ends it. -/
theorem Sampler.highStep : Obligations.HighStep := by
  rintro s u e rest hc hag hr hact rfl
  rw [step_tick hag hr, sequencerStep_high (u := ({ s with agenda := rest } : State).advance e) hact]
  exact segmentStep_eq .low .low (({ s with agenda := rest } : State).advance e) hc

/-! ### Progress -/

/-- A tick stops only at a push beyond the log (42 R145). -/
theorem tick_next {s : State} (e : Level) (hroom : s.act.sampling = true → s.segcount.toNat < 41) :
    ∃ t, tick e s = .next t := by
  cases hr : s.resetAsserted with
  | true => exact ⟨_, tick_reset hr⟩
  | false =>
    rw [tick_run hr]
    cases hact : s.act with
    | idle => exact ⟨_, sequencerStep_idle (u := s.advance e) hact⟩
    | delay => exact ⟨_, sequencerStep_delay (u := s.advance e) hact⟩
    | waitFall => exact ⟨_, sequencerStep_waitFall (u := s.advance e) hact⟩
    | low =>
      rw [sequencerStep_low (u := s.advance e) hact]
      exact ⟨_, segmentStep_eq .high .high (s.advance e) (hroom (by rw [hact]; rfl))⟩
    | high =>
      rw [sequencerStep_high (u := s.advance e) hact]
      exact ⟨_, segmentStep_eq .low .low (s.advance e) (hroom (by rw [hact]; rfl))⟩

/-- Every instruction completes: a guarded write is performed or dropped, a read and an ignored write answer. -/
theorem exec_next (i : Instr) (s : State) : ∃ t, exec i s = .next t := by
  rcases exec_cases i s with ⟨_, h⟩ | ⟨_, v, h⟩ | ⟨_, _, h⟩
  · rcases guardedWrite_cases h.symm with ⟨_, h⟩ | ⟨_, h⟩ <;> exact ⟨_, h⟩
  · exact ⟨_, h⟩
  · exact ⟨_, h⟩

/-- Every rejected access completes with an error response or a flag (60 R220). -/
theorem rejectAccess_next (r : Reject) (a : Access) (s : State) : ∃ t, rejectAccess r a s = .next t := by
  rcases rejectAccess_cases (r := r) (a := a) (s := s) rfl with ⟨_, h | h⟩ | ⟨_, _, h⟩ | ⟨_, _, h⟩ <;> exact ⟨_, h⟩

/-- A host access completes while reset is not asserted (60 R220). -/
theorem performAccess_next (a : Access) {s : State} (hr : s.resetAsserted = false) :
    ∃ t, performAccess a s = .next t := by
  cases hd : decode a with
  | ok i =>
    rw [performAccess_ok hr hd]
    exact exec_next i s
  | error r =>
    rw [performAccess_error hr hd]
    exact rejectAccess_next r a s

/-- A legal machine answers a next state, whatever event it takes but an access under reset. -/
theorem State.Legal.step_next {s : State} (hs : s.Legal)
    (hno : s.resetAsserted = true → ∀ a rest, s.agenda ≠ .access a :: rest) : ∃ t, step s = .next t := by
  cases hag : s.agenda with
  | nil =>
    rw [step_nil hag]
    exact tick_next s.nextEnv hs.segcount_lt
  | cons ev rest =>
    rw [step_cons hag]
    cases ev with
    | tick e => exact tick_next (s := { s with agenda := rest }) e hs.segcount_lt
    | access a =>
      refine performAccess_next (s := { s with agenda := rest }) a ?_
      exact Bool.eq_false_iff.mpr fun hr => hno hr a rest hag
    | resetAssert => exact ⟨_, rfl⟩
    | resetRelease d e => exact ⟨_, rfl⟩

/-- Settles O52: there is a next state by `State.Legal.step_next`, and it is legal by O47. -/
theorem legalMachineNeverStops : Obligations.LegalMachineNeverStops := by
  intro s hs hno
  obtain ⟨t, ht⟩ := hs.step_next hno
  exact ⟨t, ht, legalIsKept s t hs ht⟩

/-! ### What a tick of a SAMPLE leaves alone -/

theorem LevelKept.sameOutsideSampler {u t : State} (h : LevelKept u t) : u.SameOutsideSampler t := by
  rcases h with ⟨_, rfl⟩ | ⟨_, rfl⟩ <;> rfl

theorem SegmentEnded.sameOutsideSampler {next : Act} {u t : State} (h : SegmentEnded next u t) :
    u.SameOutsideSampler t := by
  rcases h with ⟨_, rfl⟩ | ⟨_, rfl⟩ <;> rfl

/-- A tick of an idle block or of a SAMPLE changes time and the sampler's own registers (42 R154). -/
theorem tick_sameOutsideSampler {e : Level} {s t : State} (hr : s.resetAsserted = false) (hact : s.act ≠ .delay)
    (h : tick e s = .next t) : (s.advance e).SameOutsideSampler t := by
  rcases tick_outcome hr h with ⟨_, rfl⟩ | ⟨hdelay, _⟩ | ⟨_, rfl⟩ | ⟨_, hkept⟩ | ⟨_, _, hended⟩
  · rfl
  · exact absurd hdelay hact
  · rfl
  · exact hkept.sameOutsideSampler
  · exact hended.sameOutsideSampler

/-- Settles O46: the registers by `tick_sameOutsideSampler`, the entries of the log by `tick_log`. -/
theorem samplerWritesOnlyItsOwn : Obligations.SamplerWritesOnlyItsOwn := by
  intro s e rest hag hr hact hc
  have hdelay : s.act ≠ .delay := fun h => by rw [h] at hact; cases hact
  obtain ⟨t, ht⟩ := tick_next (s := { s with agenda := rest }) e fun _ => hc
  refine ⟨t, (step_cons hag).trans ht, tick_sameOutsideSampler (s := { s with agenda := rest }) hr hdelay ht,
    fun k hk => ?_⟩
  rcases tick_log (s := { s with agenda := rest }) hr ht with hseg | ⟨_, _, hother⟩
  · rw [hseg]
  · exact hother k hk

/-! ### No abort -/

/-- No host access ends a running operation: a busy block performs no guarded write (42 R155, 60 R221). -/
theorem performAccess_act_of_busy {a : Access} {s t : State} (hbusy : s.busy = true)
    (h : performAccess a s = .next t) : t.act = s.act := by
  obtain ⟨_, ⟨r, n, rfl⟩ | ⟨_, rfl⟩ | ⟨_, rfl⟩ | ⟨hb, _⟩⟩ := performAccess_effect h
  · rfl
  · rfl
  · rfl
  · rw [hbusy] at hb; cases hb

/-- Settles O56: of the four kinds of event only a tick and an effective release of reset end an operation. -/
theorem noAbort : Obligations.NoAbort := by
  intro s t h hbusy hidle
  have hchanged : t.act ≠ s.act := fun heq => hbusy (heq.symm.trans hidle)
  obtain ⟨rest, ⟨e, hag, _⟩ | ⟨a, _, h⟩ | ⟨_, rfl⟩ | ⟨d, e, hag, rfl⟩⟩ := step_inv h
  · exact .inl (hag.imp_right fun hag => ⟨e, rest, hag⟩)
  · have hb : ({ s with agenda := rest } : State).busy = true := (State.busy_eq_true _).mpr hbusy
    exact absurd (performAccess_act_of_busy hb h) hchanged
  · exact absurd rfl hchanged
  · cases hr : s.resetAsserted with
    | false => exact absurd (by simp [State.releaseReset, hr]) hchanged
    | true => exact .inr ⟨d, e, rest, hag, rfl⟩

end Sys2Proof.Machine
end

section
/-! The invariants of the segment log: the alternation of levels and the bounds on the durations (42 R149, R150). -/

namespace Sys2Proof.Machine

/-! ### The time of the coming sample -/

/-- CNT -w SSTART at the coming tick: what its sample takes for the elapsed time (10 R36). -/
def State.nextElapsed (s : State) : Word := wrapDiff (s.cnt + 1#32) s.sstart

theorem elapsed_advance_eq (s : State) (e : Level) : (s.advance e).elapsed = s.nextElapsed := rfl

theorem nextElapsed_eq (s : State) : s.nextElapsed = s.elapsed + 1#32 := add_sub_right_comm ..

/-- At the instant that starts a segment one tick is to elapse until the coming sample (42 R150). -/
theorem nextElapsed_of_start {s : State} (h : s.sstart = s.cnt) : s.nextElapsed = 1#32 := by
  rw [State.nextElapsed, wrapDiff, h, add_sub_cancel_left]

/-- Below the threshold elapsed time does not wrap at the coming tick (42 R151). -/
theorem nextElapsed_toNat {s : State} (h : s.elapsed < s.breakThr) :
    s.nextElapsed.toNat = s.elapsed.toNat + 1 ∧ s.nextElapsed.toNat ≤ s.breakThr.toNat :=
  elapsed_advance .low h

/-- A SAMPLE that waits takes its coming sample at the threshold at the latest (42 R151). -/
theorem State.Timed.nextElapsed_waitFall {s : State} (hs : s.Timed) (hact : s.act = .waitFall) :
    s.nextElapsed.toNat ≤ s.breakThr.toNat := by
  obtain ⟨_, hwait, _⟩ := hs
  rcases hwait hact with hstart | hlt
  · simp [State.nextElapsed, wrapDiff, hstart]
  · exact (nextElapsed_toNat hlt).2

/-- In a segment the coming sample comes after 1 to max(BREAK_THR, 1) ticks (42 R150). -/
theorem State.Timed.nextElapsed_segment {s : State} (hs : s.Timed) (hact : s.act = .low ∨ s.act = .high) :
    1 ≤ s.nextElapsed.toNat ∧ s.nextElapsed.toNat ≤ max s.breakThr.toNat 1 := by
  obtain ⟨_, _, hsegment⟩ := hs
  rcases hsegment hact with hzero | hlt
  · simp [nextElapsed_eq, hzero]
  · have := nextElapsed_toNat hlt
    omega

/-! ### A tick of a SAMPLE -/

/-- The sequencer state after a segment of LOW or HIGH that does not end the SAMPLE (42 R143, R144). -/
def Act.afterSegment : Act → Act
  | .low => .high
  | .idle | .delay | .waitFall | .high => .low

/-- A tick of a SAMPLE: the first segment starts, a sample without a change of level, or the end of a segment
(42 R142 to R144). -/
theorem tick_sample_inv {e : Level} {s t : State} (hr : s.resetAsserted = false) (hact : s.act.sampling = true)
    (h : tick e s = .next t) :
    (s.act = .waitFall ∧ t = { s.advance e with sstart := (s.advance e).cnt, act := .low }) ∨
      LevelKept (s.advance e) t ∨
      ((s.act = .low ∨ s.act = .high) ∧ SegmentEnded s.act.afterSegment (s.advance e) t) := by
  rcases tick_inv hr h with ⟨ha, _⟩ | ⟨ha, _⟩ | ⟨ha, rfl⟩ | ⟨ha, h⟩ | ⟨ha, h⟩
  · rw [ha] at hact; cases hact
  · rw [ha] at hact; cases hact
  · rcases waitFallStep_cases (s.advance e) with ⟨_, hstep⟩ | ⟨_, hkept⟩
    · exact .inl ⟨ha, hstep⟩
    · exact .inr (.inl hkept)
  · rcases lowStep_inv h with ⟨_, hended⟩ | ⟨_, hkept⟩
    · exact .inr (.inr ⟨.inl ha, by rw [ha]; exact hended⟩)
    · exact .inr (.inl hkept)
  · rcases highStep_inv h with ⟨_, hended⟩ | ⟨_, hkept⟩
    · exact .inr (.inr ⟨.inr ha, by rw [ha]; exact hended⟩)
    · exact .inr (.inl hkept)

/-- No tick starts a SAMPLE. -/
theorem tick_not_sampling {e : Level} {s t : State} (hr : s.resetAsserted = false) (hact : s.act.sampling = false)
    (h : tick e s = .next t) : t.act.sampling = false := by
  rcases tick_inv hr h with ⟨ha, rfl⟩ | ⟨ha, rfl⟩ | ⟨ha, _⟩ | ⟨ha, _⟩ | ⟨ha, _⟩
  · exact hact
  · simp only [State.delayStep]
    split
    · rfl
    · exact hact
  all_goals rw [ha] at hact; cases hact

/-- The guarded writes that an idle block performs start no SAMPLE, but for SAMPLE itself, which starts in WAITFALL with
an empty log (42 R140). -/
theorem effectOf_sampling {s : State} (i : Instr) (hb : s.busy = false) :
    (effectOf i s).act.sampling = false ∨ (effectOf i s).act = .waitFall ∧ (effectOf i s).segcount = 0#6 := by
  rcases effectOf_act i hb with hidle | rfl | rfl
  · exact .inl (by rw [hidle]; rfl)
  · exact .inl rfl
  · exact .inr ⟨rfl, rfl⟩

/-- The release of reset leaves an idle block (70 R261). -/
theorem releaseReset_act {s : State} (d : Config.ResetDraws) (e : Level) (hr : s.resetAsserted = true) :
    (s.releaseReset d e).act = .idle := by
  rw [State.releaseReset, if_pos hr]
  rfl

/-! ### The alternation of levels -/

theorem alternates_of_not_sampling {s : State} (h : s.act.sampling = false) : s.Alternates := by
  refine ⟨fun ha => ?_, fun ha => ?_, fun ha => ?_⟩ <;> rw [ha] at h <;> cases h

theorem LevelKept.alternates {u t : State} (h : LevelKept u t) (hu : u.Alternates) : t.Alternates := by
  rcases h with ⟨_, rfl⟩ | ⟨_, rfl⟩
  · exact alternates_of_not_sampling rfl
  · exact hu

/-- The end of a segment changes the level and the parity of SEGCOUNT together (42 R149). -/
theorem SegmentEnded.alternates {u t : State} (h : SegmentEnded u.act.afterSegment u t)
    (hact : u.act = .low ∨ u.act = .high) (hu : u.Alternates) : t.Alternates := by
  obtain ⟨_, heven, hodd⟩ := hu
  rcases h with ⟨_, rfl⟩ | ⟨hc, rfl⟩
  · exact alternates_of_not_sampling rfl
  · have hcount : (u.segcount + 1#6).toNat = u.segcount.toNat + 1 := segcount_succ (by omega)
    rcases hact with ha | ha
    · have hnext : (u.segcount.toNat + 1) % 2 = 1 := by have := heven ha; omega
      simp [State.Alternates, ha, Act.afterSegment, hcount, hnext]
    · have hnext : (u.segcount.toNat + 1) % 2 = 0 := by have := hodd ha; omega
      simp [State.Alternates, ha, Act.afterSegment, hcount, hnext]

/-- A tick keeps the alternation: the first segment starts at entry 0, and each segment ends at the next one. -/
theorem tick_alternates {e : Level} {s t : State} (hs : s.Alternates) (hr : s.resetAsserted = false)
    (h : tick e s = .next t) : t.Alternates := by
  cases hact : s.act.sampling with
  | false => exact alternates_of_not_sampling (tick_not_sampling hr hact h)
  | true =>
    have hadv : (s.advance e).Alternates := hs
    rcases tick_sample_inv hr hact h with ⟨ha, rfl⟩ | hkept | ⟨ha, hended⟩
    · obtain ⟨hempty, _⟩ := hs
      simp [State.Alternates, hempty ha]
    · exact hkept.alternates hadv
    · exact hended.alternates ha hadv

/-- A guarded write that an idle block performs starts at most a SAMPLE with an empty log (42 R140). -/
theorem effectOf_alternates {s : State} (i : Instr) (hb : s.busy = false) : (effectOf i s).Alternates := by
  rcases effectOf_sampling i hb with hact | ⟨hact, hempty⟩
  · exact alternates_of_not_sampling hact
  · simp [State.Alternates, hact, hempty]

/-- Settles O49, event by event. -/
theorem alternationIsKept : Obligations.AlternationIsKept :=
  step_keeps State.Alternates
    (hfree := fun _ _ _ _ _ _ hs => hs)
    (htick := fun _ _ _ hs hr h => tick_alternates hs hr h)
    (henv := fun _ _ hs => hs)
    (heffect := fun _ i _ hb _ => effectOf_alternates i hb)
    (hassert := fun _ hs => hs)
    (hrelease := fun _ d e _ hr => alternates_of_not_sampling (by rw [releaseReset_act d e hr]; rfl))

/-! ### The bounds on the durations -/

theorem durationsBounded_of_not_sampling {s : State} (h : s.act.sampling = false) : s.DurationsBounded := fun hact => by
  rw [h] at hact; cases hact

theorem LevelKept.durationsBounded {u t : State} (h : LevelKept u t) (hu : u.DurationsBounded) :
    t.DurationsBounded := by
  rcases h with ⟨_, rfl⟩ | ⟨_, rfl⟩
  · exact durationsBounded_of_not_sampling rfl
  · exact hu

/-- The end of a segment keeps the bounds when its own duration meets them (42 R145, R150). -/
theorem SegmentEnded.durationsBounded {next : Act} {u t : State} (h : SegmentEnded next u t)
    (hu : u.DurationsBounded) (hact : u.act.sampling = true)
    (hd : 1 ≤ u.elapsed.toNat ∧ u.elapsed.toNat ≤ max u.breakThr.toNat 1) : t.DurationsBounded := by
  rcases h with ⟨_, rfl⟩ | ⟨hc, rfl⟩
  · exact durationsBounded_of_not_sampling rfl
  · intro _ k hk
    have hcount : (u.segcount + 1#6).toNat = u.segcount.toNat + 1 := segcount_succ (by omega)
    by_cases hlast : u.segcount.toNat = k.val
    · simpa [hlast] using hd
    · have hold := hu hact k (by simp only [hcount] at hk; omega)
      simpa [Vector.getElem_setIfInBounds_ne, hlast] using hold

/-- A tick keeps the bounds: what it records is the elapsed time of a timed segment. -/
theorem tick_durationsBounded {e : Level} {s t : State} (htimed : s.Timed) (hs : s.DurationsBounded)
    (hr : s.resetAsserted = false) (h : tick e s = .next t) : t.DurationsBounded := by
  cases hact : s.act.sampling with
  | false => exact durationsBounded_of_not_sampling (tick_not_sampling hr hact h)
  | true =>
    have hadv : (s.advance e).DurationsBounded := hs
    rcases tick_sample_inv hr hact h with ⟨_, rfl⟩ | hkept | ⟨ha, hended⟩
    · exact fun _ => hs hact
    · exact hkept.durationsBounded hadv
    · exact hended.durationsBounded hadv hact (htimed.nextElapsed_segment ha)

/-- A guarded write that an idle block performs starts at most a SAMPLE with an empty log (42 R140). -/
theorem effectOf_durationsBounded {s : State} (i : Instr) (hb : s.busy = false) :
    (effectOf i s).DurationsBounded := by
  rcases effectOf_sampling i hb with hact | ⟨_, hempty⟩
  · exact durationsBounded_of_not_sampling hact
  · intro _ k hk
    simp [hempty] at hk

/-- Settles O50, event by event, together with the timing invariant that bounds the elapsed time. -/
theorem durationBoundsAreKept : Obligations.DurationBoundsAreKept := by
  intro s t htimed hs h
  refine (step_keeps (fun s => s.Timed ∧ s.DurationsBounded)
    (hfree := fun _ _ _ _ _ _ hs => hs)
    (htick := fun _ _ _ ⟨htimed, hs⟩ hr h => ⟨tick_timed hr h, tick_durationsBounded htimed hs hr h⟩)
    (henv := fun _ _ hs => hs)
    (heffect := fun _ i _ hb _ => ⟨effectOf_timed i hb, effectOf_durationsBounded i hb⟩)
    (hassert := fun _ hs => hs)
    (hrelease := fun _ d e _ hr => ⟨releaseReset_timed d e hr, ?_⟩) s t ⟨htimed, hs⟩ h).2
  exact durationsBounded_of_not_sampling (by rw [releaseReset_act d e hr]; rfl)

end Sys2Proof.Machine
end

section
/-! Whole runs of a SAMPLE: that it terminates, what a run of the line is recorded as, and the silent line (42 R148,
R150, R151). -/

namespace Sys2Proof.Machine

/-! ### Runs over a waveform -/

/-- A run goes on from where its first part ends. -/
theorem run_add {k : Nat} {s t : State} (h : run k s = .next t) (m : Nat) : run (k + m) s = run m t := by
  induction k generalizing s with
  | zero =>
    cases h
    rw [Nat.zero_add]
  | succ k ih =>
    cases hstep : step s with
    | next u =>
      rw [run_succ k hstep] at h
      rw [Nat.add_right_comm, run_succ (k + m) hstep]
      exact ih h
    | fault f => simp [run, Host.Core.run, core, hstep] at h
    | refused r => simp [run, Host.Core.run, core, hstep] at h

/-- A run whose last step is `step`. -/
theorem run_concat {k : Nat} {s t u : State} (h : run k s = .next t) (hstep : step t = .next u) :
    run (k + 1) s = .next u :=
  (run_add h 1).trans ((run_succ 0 hstep).trans (run_zero u))

/-- What each tick of a waveform takes from its number of ticks so far to the next holds after the whole waveform. -/
theorem run_ticks {P : Nat → State → Prop} {es : List Level} {rest : List Event}
    (hstep : ∀ (k : Nat) (s : State) (agenda : List Event), ∀ e ∈ es, P k s → s.agenda = .tick e :: agenda →
      ∃ t, step s = .next t ∧ t.agenda = agenda ∧ P (k + 1) t)
    {k : Nat} {s : State} (h : P k s) (hag : s.agenda = ticks es ++ rest) :
    ∃ t, run es.length s = .next t ∧ t.agenda = rest ∧ P (k + es.length) t := by
  induction es generalizing k s with
  | nil => exact ⟨s, run_zero s, hag, h⟩
  | cons e es ih =>
    obtain ⟨u, hs, hu, hP⟩ := hstep k s _ e List.mem_cons_self h hag
    obtain ⟨t, hrun, ht, hP⟩ := ih (fun k s agenda e he => hstep k s agenda e (List.mem_cons_of_mem _ he)) hP hu
    refine ⟨t, (run_succ es.length hs).trans hrun, ht, ?_⟩
    rwa [List.length_cons, Nat.add_comm es.length 1, ← Nat.add_assoc]

/-- The write that an idle block accepts as SAMPLE (42 R140). -/
theorem step_sample {s : State} {rest : List Event} (hb : s.busy = false) (hr : s.resetAsserted = false) :
    step { s with agenda := .access (encode .sample) :: rest } =
      .next (({ s with agenda := rest } : State).startSample.respond .done) :=
  (step_exec (s := { s with agenda := .access (encode .sample) :: rest }) rfl hr (decodeOfEncode .sample rfl)).trans
    (guardedWrite_idle (f := State.startSample) hb)

/-- At acceptance the coming sample is the first one, with no time elapsed (42 R140). -/
theorem nextElapsed_startSample (s : State) : (s.startSample.respond .done).nextElapsed = 0#32 :=
  BitVec.sub_self _

/-! ### Every SAMPLE terminates -/

/-- A bound on the ticks that a running SAMPLE still takes: what is left of its wait or segment, and the longest
segments up to the 41st entry (42 R151). -/
def State.ticksLeft (s : State) : Nat :=
  match s.act with
  | .idle | .delay => 0
  | .waitFall => s.breakThr.toNat + 1 - s.nextElapsed.toNat + 41 * max s.breakThr.toNat 1
  | .low | .high =>
    max s.breakThr.toNat 1 + 1 - s.nextElapsed.toNat + (40 - s.segcount.toNat) * max s.breakThr.toNat 1

theorem ticksLeft_of_not_sampling {s : State} (h : s.act.sampling = false) : s.ticksLeft = 0 := by
  cases ha : s.act with
  | idle | delay => simp [State.ticksLeft, ha]
  | waitFall | low | high => rw [ha] at h; cases h

theorem ticksLeft_waitFall {s : State} (h : s.act = .waitFall) :
    s.ticksLeft = s.breakThr.toNat + 1 - s.nextElapsed.toNat + 41 * max s.breakThr.toNat 1 := by
  simp [State.ticksLeft, h]

theorem ticksLeft_segment {s : State} (h : s.act = .low ∨ s.act = .high) :
    s.ticksLeft =
      max s.breakThr.toNat 1 + 1 - s.nextElapsed.toNat + (40 - s.segcount.toNat) * max s.breakThr.toNat 1 := by
  rcases h with h | h <;> simp [State.ticksLeft, h]

/-- At the start of a segment the bound is as many longest segments as the log has room for. -/
theorem ticksLeft_segment_start {s : State} (h : s.act = .low ∨ s.act = .high) (hstart : s.sstart = s.cnt) :
    s.ticksLeft = max s.breakThr.toNat 1 + (40 - s.segcount.toNat) * max s.breakThr.toNat 1 := by
  rw [ticksLeft_segment h, nextElapsed_of_start hstart]
  rfl

/-- A running SAMPLE waits for the fall or is in a segment. -/
theorem sampling_cases {s : State} (h : s.act.sampling = true) : s.act = .waitFall ∨ s.act = .low ∨ s.act = .high := by
  cases ha : s.act with
  | idle | delay => rw [ha] at h; cases h
  | waitFall => exact .inl rfl
  | low => exact .inr (.inl rfl)
  | high => exact .inr (.inr rfl)

/-- A timed SAMPLE has at least its coming tick left. -/
theorem ticksLeft_pos {s : State} (hs : s.Timed) (hact : s.act.sampling = true) : 0 < s.ticksLeft := by
  rcases sampling_cases hact with ha | ha
  · rw [ticksLeft_waitFall ha]
    omega
  · have := hs.nextElapsed_segment ha
    rw [ticksLeft_segment ha]
    omega

/-- The fall leaves at most 41 segments, fewer ticks than the wait before it. -/
theorem ticksLeft_fall {s t : State} {e : Level} (hs : s.Timed) (ha : s.act = .waitFall)
    (ht : t = { s.advance e with sstart := (s.advance e).cnt, act := .low }) : t.ticksLeft < s.ticksLeft := by
  subst ht
  have hwait := hs.nextElapsed_waitFall ha
  have hroom := Nat.mul_le_mul_right (max s.breakThr.toNat 1) (Nat.sub_le 40 s.segcount.toNat)
  rw [ticksLeft_waitFall ha, ticksLeft_segment_start (.inl rfl) rfl]
  simp only [State.advance_breakThr, State.advance_segcount]
  omega

/-- A sample without a change of level takes one tick, or all that are left. -/
theorem LevelKept.ticksLeft_lt {s t : State} {e : Level} (h : LevelKept (s.advance e) t) (hs : s.Timed)
    (hact : s.act.sampling = true) : t.ticksLeft < s.ticksLeft := by
  rcases h with ⟨_, rfl⟩ | ⟨hlt, rfl⟩
  · rw [ticksLeft_of_not_sampling (s := (s.advance e).stopSample .brk) rfl]
    exact ticksLeft_pos hs hact
  · have hnext := nextElapsed_toNat hlt
    rw [elapsed_advance_eq, State.advance_breakThr] at hnext
    rcases sampling_cases hact with ha | ha
    · rw [ticksLeft_waitFall ha, ticksLeft_waitFall (s := s.advance e) ha, State.advance_breakThr]
      omega
    · rw [ticksLeft_segment ha, ticksLeft_segment (s := s.advance e) ha, State.advance_breakThr,
        State.advance_segcount]
      omega

/-- The end of a segment leaves one longest segment fewer, or none. -/
theorem SegmentEnded.ticksLeft_lt {s t : State} {e : Level} {next : Act} (h : SegmentEnded next (s.advance e) t)
    (hnext : next = .low ∨ next = .high) (hs : s.Timed) (ha : s.act = .low ∨ s.act = .high) :
    t.ticksLeft < s.ticksLeft := by
  have hsegment := hs.nextElapsed_segment ha
  rw [ticksLeft_segment ha]
  rcases h with ⟨_, rfl⟩ | ⟨hc, rfl⟩
  · rw [ticksLeft_of_not_sampling rfl]
    omega
  · rw [ticksLeft_segment_start hnext rfl]
    simp only [State.advance_breakThr, State.advance_segcount] at hc ⊢
    obtain ⟨m, hm⟩ : ∃ m, 40 - s.segcount.toNat = m + 1 := ⟨39 - s.segcount.toNat, by omega⟩
    have hm' : 40 - (s.segcount + 1#6).toNat = m := by
      rw [segcount_succ (by omega)]
      omega
    rw [hm, hm', Nat.add_one_mul]
    omega

theorem afterSegment_low_or_high (a : Act) : a.afterSegment = .low ∨ a.afterSegment = .high := by
  cases a <;> simp [Act.afterSegment]

/-- Every tick of a SAMPLE leaves fewer ticks. -/
theorem tick_ticksLeft_lt {e : Level} {s t : State} (hs : s.Timed) (hr : s.resetAsserted = false)
    (hact : s.act.sampling = true) (h : tick e s = .next t) : t.ticksLeft < s.ticksLeft := by
  rcases tick_sample_inv hr hact h with ⟨ha, ht⟩ | hkept | ⟨ha, hended⟩
  · exact ticksLeft_fall hs ha ht
  · exact hkept.ticksLeft_lt hs hact
  · exact hended.ticksLeft_lt (afterSegment_low_or_high _) hs ha

/-- No tick starts a DELAY. -/
theorem tick_act_ne_delay {e : Level} {s t : State} (hr : s.resetAsserted = false) (hact : s.act ≠ .delay)
    (h : tick e s = .next t) : t.act ≠ .delay := by
  rcases tick_outcome hr h with ⟨_, rfl⟩ | ⟨hdelay, _⟩ | ⟨_, rfl⟩ | ⟨_, ⟨_, rfl⟩ | ⟨_, rfl⟩⟩ | ⟨next, hnext, hended⟩
  · exact hact
  · exact absurd hdelay hact
  · exact nofun
  · exact nofun
  · exact hact
  · rcases hended with ⟨_, rfl⟩ | ⟨_, rfl⟩
    · exact nofun
    · rcases hnext with rfl | rfl <;> exact nofun

/-- What a SAMPLE that takes at most n ticks shows k ticks after the instant that accepted it. -/
structure SampledFor (n k : Nat) (s : State) : Prop where
  outOfReset : s.resetAsserted = false
  legal : s.Legal
  timed : s.Timed
  noDelay : s.act ≠ .delay
  left : s.ticksLeft ≤ n - k

/-- SAMPLE starts with at most 1 + T + 41·max(T, 1) ticks left (42 R140, R151). -/
theorem sampledFor_startSample {s : State} {n : Nat} (hr : s.resetAsserted = false)
    (hn : 1 + s.breakThr.toNat + 41 * max s.breakThr.toNat 1 ≤ n) :
    SampledFor n 0 (s.startSample.respond .done) where
  outOfReset := hr
  legal := legal_of_room (Nat.succ_pos 40) nofun
  timed := by simp [State.Timed]
  noDelay := nofun
  left := by
    rw [ticksLeft_waitFall rfl, nextElapsed_startSample]
    simp only [State.respond_breakThr, State.startSample_breakThr, BitVec.toNat_ofNat]
    omega

/-- A tick takes one of the ticks left, while the SAMPLE runs and after it has ended. -/
theorem SampledFor.tick {n k : Nat} {s t : State} {e : Level} (h : SampledFor n k s)
    (ht : Machine.tick e s = .next t) : SampledFor n (k + 1) t where
  outOfReset :=
    ((congrArg State.resetAsserted (tick_sameOutsideSampler h.outOfReset h.noDelay ht) :) : _).trans h.outOfReset
  legal := tick_legal h.legal h.outOfReset ht
  timed := tick_timed h.outOfReset ht
  noDelay := tick_act_ne_delay h.outOfReset h.noDelay ht
  left := by
    have hleft := h.left
    cases hact : s.act.sampling with
    | false =>
      rw [ticksLeft_of_not_sampling (tick_not_sampling h.outOfReset hact ht)]
      exact Nat.zero_le _
    | true =>
      have hlt := tick_ticksLeft_lt h.timed h.outOfReset hact ht
      omega

/-- The agenda plays no part in a SAMPLE. -/
theorem SampledFor.with_agenda {n k : Nat} {s : State} (h : SampledFor n k s) (rest : List Event) :
    SampledFor n k { s with agenda := rest } := { h with }

/-- The step of a tick: it completes, since a legal SAMPLE has room in its log. -/
theorem SampledFor.step {n k : Nat} {s : State} {e : Level} {rest : List Event} (h : SampledFor n k s)
    (hag : s.agenda = .tick e :: rest) : ∃ t, step s = .next t ∧ t.agenda = rest ∧ SampledFor n (k + 1) t := by
  have h' := h.with_agenda rest
  obtain ⟨t, ht⟩ := tick_next e h'.legal.segcount_lt
  exact ⟨t, (step_cons hag).trans ht,
    (congrArg State.agenda (tick_sameOutsideSampler h'.outOfReset h'.noDelay ht) :), h'.tick ht⟩

/-- With no tick left the SAMPLE has ended. -/
theorem SampledFor.act_eq_idle {n k : Nat} {s : State} (h : SampledFor n k s) (hk : n ≤ k) : s.act = .idle := by
  have hnone : s.ticksLeft = 0 := by have := h.left; omega
  have hact : s.act.sampling = false := Bool.eq_false_iff.mpr fun hact => (ticksLeft_pos h.timed hact).ne' hnone
  cases ha : s.act with
  | idle => rfl
  | delay => exact absurd ha h.noDelay
  | waitFall | low | high => rw [ha] at hact; cases hact

/-- Settles O43: the accepting write leaves at most as many ticks as the waveform has. -/
theorem sampleTerminates : Obligations.SampleTerminates := by
  intro s es hb hr hlen
  obtain ⟨t, hrun, hag, hend⟩ := run_ticks (fun _ _ _ _ _ h hag => h.step hag)
    (sampledFor_startSample (s := { s with agenda := ticks es }) hr hlen) (List.append_nil _).symm
  exact ⟨t, (run_succ es.length (step_sample hb hr)).trans hrun, hag, hend.act_eq_idle (Nat.le_add_left _ 0),
    hend.legal.segcount_le⟩

/-! ### A line that keeps its level -/

/-- The level that a SAMPLE samples while its wait or its segment goes on (42 R142 to R144). -/
def Act.heldLevel : Act → Level
  | .low => .low
  | .idle | .delay | .waitFall | .high => .high

/-- A sample of the held level is checked for a break (42 R142 to R144, R146). -/
theorem sequencerStep_held {u : State} (hact : u.act.sampling = true) (hpin : u.pin = u.act.heldLevel) :
    sequencerStep u = .next u.breakCheck := by
  rcases sampling_cases hact with ha | ha | ha <;> rw [ha] at hpin
  · rw [sequencerStep_waitFall ha, State.waitFallStep, hpin]
    rfl
  · rw [sequencerStep_low ha, Machine.lowStep, hpin]
    rfl
  · rw [sequencerStep_high ha, Machine.highStep, hpin]
    rfl

/-- A sample of the other level in LOW or HIGH ends the segment (42 R143, R144). -/
theorem sequencerStep_changed {u : State} (h : u.act = .low ∧ u.pin = .high ∨ u.act = .high ∧ u.pin = .low) :
    sequencerStep u = endSegment u.act.afterSegment u := by
  rcases h with ⟨ha, hpin⟩ | ⟨ha, hpin⟩
  · rw [sequencerStep_low ha, Machine.lowStep, hpin, ha]
    rfl
  · rw [sequencerStep_high ha, Machine.highStep, hpin, ha]
    rfl

/-- How many ticks of the held level bring the break, at the first sample whose elapsed time reaches BREAK_THR
(42 R146). -/
def State.ticksToBreak (s : State) : Nat := s.breakThr.toNat - s.nextElapsed.toNat + 1

/-- A segment breaks max(T, 1) ticks after its start (42 R150). -/
theorem ticksToBreak_of_start {s : State} (h : s.sstart = s.cnt) : s.ticksToBreak = max s.breakThr.toNat 1 := by
  rw [State.ticksToBreak, nextElapsed_of_start h, BitVec.toNat_ofNat]
  omega

/-- The wait for the fall breaks 1 + T ticks after acceptance (42 R142, R148). -/
theorem ticksToBreak_startSample (s : State) :
    (s.startSample.respond .done).ticksToBreak = s.breakThr.toNat + 1 := by
  rw [State.ticksToBreak, nextElapsed_startSample]
  rfl

/-- `t` is the sampler `s` after k ticks of the held level on a released line: it goes on, k ticks older, or has ended
by BREAK, and has recorded nothing (42 R146, R150). -/
structure HeldFor (s : State) (k : Nat) (t : State) : Prop where
  outOfReset : t.resetAsserted = false
  released : t.dir = .input
  breakThr : t.breakThr = s.breakThr
  segcount : t.segcount = s.segcount
  seg : t.seg = s.seg
  running : k < s.ticksToBreak → t.act = s.act ∧ t.nextElapsed.toNat = s.nextElapsed.toNat + k
  ended : s.ticksToBreak ≤ k → t.act = .idle ∧ t.endReason = .brk

theorem heldFor_zero {s : State} (hr : s.resetAsserted = false) (hdir : s.dir = .input) : HeldFor s 0 s where
  outOfReset := hr
  released := hdir
  breakThr := rfl
  segcount := rfl
  seg := rfl
  running := fun _ => ⟨rfl, rfl⟩
  ended := fun h => absurd h (Nat.not_succ_le_zero _)

/-- The agenda plays no part in it. -/
theorem HeldFor.with_agenda {s t : State} {k : Nat} (h : HeldFor s k t) (rest : List Event) :
    HeldFor s k { t with agenda := rest } := { h with }

/-- The break check of a sampler that goes on, one tick later: BREAK exactly at `ticksToBreak`. -/
theorem HeldFor.breakCheck {s t : State} {k : Nat} (h : HeldFor s k t) (hk : k < s.ticksToBreak) (e : Level) :
    HeldFor s (k + 1) (t.advance e).breakCheck := by
  obtain ⟨hact, helapsed⟩ := h.running hk
  have hthr : t.breakThr.toNat = s.breakThr.toNat := by rw [h.breakThr]
  have hbreak : s.ticksToBreak = s.breakThr.toNat - s.nextElapsed.toNat + 1 := rfl
  rcases breakCheck_cases (t.advance e) with ⟨hle, hstop⟩ | ⟨hlt, hsame⟩
  · have hreached : t.breakThr.toNat ≤ t.nextElapsed.toNat := hle
    rw [hstop]
    exact { h with
      running := fun hlt => by omega
      ended := fun _ => ⟨rfl, rfl⟩ }
  · have hbelow : t.nextElapsed.toNat < t.breakThr.toNat := hlt
    obtain ⟨hnext, _⟩ := nextElapsed_toNat hlt
    rw [elapsed_advance_eq] at hnext
    rw [hsame]
    exact { h with
      running := fun _ => ⟨hact, by omega⟩
      ended := fun hge => by omega }

theorem breakCheck_agenda (u : State) : u.breakCheck.agenda = u.agenda := by
  rcases breakCheck_cases u with ⟨_, h⟩ | ⟨_, h⟩ <;> rw [h]
  rfl

/-- A tick of the held level, while the sampler goes on and after it has ended. -/
theorem HeldFor.step {s t : State} {k : Nat} {rest : List Event} (h : HeldFor s k t) (hact : s.act.sampling = true)
    (hag : t.agenda = .tick s.act.heldLevel :: rest) :
    ∃ u, step t = .next u ∧ u.agenda = rest ∧ HeldFor s (k + 1) u := by
  by_cases hk : k < s.ticksToBreak
  · obtain ⟨hsame, _⟩ := h.running hk
    have hstep : Machine.step t = .next (({ t with agenda := rest } : State).advance s.act.heldLevel).breakCheck := by
      rw [step_tick hag h.outOfReset]
      refine sequencerStep_held (hsame.symm ▸ hact) ?_
      rw [pin_of_released (s := ({ t with agenda := rest } : State).advance s.act.heldLevel) h.released, ← hsame]
      rfl
    exact ⟨_, hstep, breakCheck_agenda _, (h.with_agenda rest).breakCheck hk _⟩
  · obtain ⟨hidle, hbrk⟩ := h.ended (Nat.le_of_not_lt hk)
    exact ⟨_, idleTickTakesNoStep t _ rest hag h.outOfReset hidle, rfl,
      { h with
        running := fun hlt => absurd (Nat.lt_of_succ_lt hlt) hk
        ended := fun _ => ⟨hidle, hbrk⟩ }⟩

/-- Any number of ticks of the held level. -/
theorem run_held {s : State} {n : Nat} {rest : List Event} (hact : s.act.sampling = true)
    (hr : s.resetAsserted = false) (hdir : s.dir = .input)
    (hag : s.agenda = ticks (List.replicate n s.act.heldLevel) ++ rest) :
    ∃ t, run n s = .next t ∧ t.agenda = rest ∧ HeldFor s n t := by
  have hstep : ∀ (k : Nat) (t : State) (agenda : List Event), ∀ e ∈ List.replicate n s.act.heldLevel,
      HeldFor s k t → t.agenda = .tick e :: agenda →
        ∃ u, step t = .next u ∧ u.agenda = agenda ∧ HeldFor s (k + 1) u := by
    intro k t agenda e he h hag
    rw [List.eq_of_mem_replicate he] at hag
    exact h.step hact hag
  simpa using run_ticks hstep (heldFor_zero hr hdir) hag

/-- A change of level on a released line ends the segment: it records the elapsed time of that sample as the next entry,
and the next segment starts there (42 R143, R144). -/
theorem step_changed {s : State} {change : Level} {rest : List Event} {c : Nat} (hc : c < 41)
    (hcount : s.segcount.toNat = c) (hact : s.act = .low ∧ change = .high ∨ s.act = .high ∧ change = .low)
    (hr : s.resetAsserted = false) (hdir : s.dir = .input) (hag : s.agenda = .tick change :: rest) :
    ∃ t, step s = .next t ∧ t.segcount.toNat = c + 1 ∧ t.seg[c] = s.nextElapsed ∧ t.sstart = t.cnt := by
  subst hcount
  have hpin : (({ s with agenda := rest } : State).advance change).pin = change := pin_of_released hdir
  have hpush := endSegment_eq s.act.afterSegment (({ s with agenda := rest } : State).advance change) hc
  refine ⟨_, (step_tick hag hr).trans ((sequencerStep_changed ?_).trans hpush), ?_, ?_, ?_⟩
  · rw [hpin]
    exact hact
  · simp only [State.advance_segcount, BitVec.toNat_ofNat]
    omega
  · exact Vector.getElem_set_self hc
  · rfl

/-- Settles O42: `run_held` gives the state at the last sample of the run, and after the break. -/
theorem runLengthIsRecorded : Obligations.RunLengthIsRecorded := by
  intro s same other d hc hlevels hr hdir hstart
  have hsampling : s.act.sampling = true := by rcases hlevels with ⟨ha, _⟩ | ⟨ha, _⟩ <;> rw [ha] <;> rfl
  have hsame : s.act.heldLevel = same := by
    rcases hlevels with ⟨ha, rfl, _⟩ | ⟨ha, rfl, _⟩ <;> rw [ha] <;> rfl
  have hother : s.act = .low ∧ other = .high ∨ s.act = .high ∧ other = .low := by
    rcases hlevels with ⟨ha, _, rfl⟩ | ⟨ha, _, rfl⟩
    · exact .inl ⟨ha, rfl⟩
    · exact .inr ⟨ha, rfl⟩
  have hfirst : s.nextElapsed.toNat = 1 := by
    rw [nextElapsed_of_start hstart]
    rfl
  have hbreak := ticksToBreak_of_start hstart
  refine ⟨fun hpos hle => ?_, fun hd => ?_⟩
  · obtain ⟨t, hrun, hag, hheld⟩ := run_held (n := d - 1) (rest := [.tick other])
      (s := { s with agenda := ticks (List.replicate (d - 1) same ++ [other]) }) hsampling hr hdir
      (by simp [ticks, hsame])
    obtain ⟨hact, helapsed⟩ := hheld.running (by change d - 1 < s.ticksToBreak; omega)
    obtain ⟨u, hstep, hcount, hseg, hnew⟩ := step_changed hc (congrArg BitVec.toNat hheld.segcount)
      (hact ▸ hother) hheld.outOfReset hheld.released hag
    refine ⟨u, ?_, hcount, ?_, hnew⟩
    · rw [← Nat.sub_add_cancel hpos]
      exact run_concat hrun hstep
    · rw [hseg, helapsed]
      change s.nextElapsed.toNat + (d - 1) = d
      omega
  · obtain ⟨t, hrun, _, hheld⟩ := run_held (n := d) (rest := [])
      (s := { s with agenda := ticks (List.replicate d same) }) hsampling hr hdir (by simp [hsame])
    obtain ⟨hidle, hbrk⟩ := hheld.ended (by change s.ticksToBreak ≤ d; omega)
    exact ⟨t, hrun, hidle, hbrk, hheld.segcount, hheld.seg⟩

/-- DECODE of an idle block without segments gives NO_RESPONSE (43 R171). -/
theorem exec_decode_empty {s : State} {i : Instr} (hi : i = .decodeA ∨ i = .decodeB) (hb : s.busy = false)
    (hempty : s.segcount = 0#6) : exec i s = .next ((s.setOutcome .noResponse).respond .done) := by
  have hcore (m : SensorModel) : s.decodeCore m = s.setOutcome .noResponse := by
    simp [State.decodeCore, hempty]
  rcases hi with rfl | rfl
  · exact (guardedWrite_idle (f := State.decodeCore .a) hb).trans (by rw [hcore])
  · exact (guardedWrite_idle (f := State.decodeCore .b) hb).trans (by rw [hcore])

/-- Settles O44: the wait ends by BREAK at the tick 1 + T, later ticks change nothing, and DECODE finds no segment. -/
theorem silentLineGivesNoResponse : Obligations.SilentLineGivesNoResponse := by
  intro s i n hb hr hdir hi hn
  have hdecode : decode (encode i) = .ok i := decodeOfEncode i (by rcases hi with rfl | rfl <;> rfl)
  obtain ⟨t, hrun, hag, hheld⟩ := run_held (n := n) (rest := [.access (encode i)])
    (s := State.respond (State.startSample
      { s with agenda := ticks (List.replicate n .high) ++ [.access (encode i)] }) .done)
    rfl hr hdir rfl
  obtain ⟨hidle, hbrk⟩ := hheld.ended ((ticksToBreak_startSample _).trans_le hn)
  have hstep := (step_exec hag hheld.outOfReset hdecode).trans
    (exec_decode_empty hi ((State.busy_eq_false _).mpr hidle) hheld.segcount)
  exact ⟨_, (run_succ (n + 1) (step_sample hb hr)).trans (run_concat hrun hstep), hheld.segcount, hbrk, hidle, rfl,
    hheld.seg⟩

end Sys2Proof.Machine
end

section
/-! The statements about the decoder: the outcome for each number of segments, the bytes that the durations are packed
into, the checksum, the values of the two models, and what a DECODE leaves unchanged (43 R170 to R182). -/

namespace Sys2Proof.Machine

/-! ### What DecodeCore does, by the number of segments -/

/-- The two DECODE commands are DECODE m for the two sensor models. -/
theorem eq_decodeInstr {i : Instr} (hi : i = .decodeA ∨ i = .decodeB) : ∃ m, i = decodeInstr m := by
  rcases hi with rfl | rfl
  · exact ⟨.a, rfl⟩
  · exact ⟨.b, rfl⟩

theorem decodeInstr_injective : Function.Injective decodeInstr := by
  intro m n h
  cases m <;> cases n <;> first | rfl | cases h

/-- DECODE m of an idle block performs DecodeCore (43 R180, R181). -/
theorem exec_decodeInstr (m : SensorModel) {s : State} (hb : s.busy = false) :
    exec (decodeInstr m) s = .next ((s.decodeCore m).respond .done) := by
  cases m
  · exact guardedWrite_idle hb
  · exact guardedWrite_idle hb

theorem decodeCore_of_empty (m : SensorModel) {s : State} (h : s.segcount.toNat = 0) :
    s.decodeCore m = s.setOutcome .noResponse := by
  simp only [State.decodeCore, h, if_true]

theorem decodeCore_of_short (m : SensorModel) {s : State} (hpos : 1 ≤ s.segcount.toNat)
    (hlt : s.segcount.toNat < 40) : s.decodeCore m = s.setOutcome .corruptCount := by
  rw [State.decodeCore, if_neg (by omega), if_pos (show _ < Config.dataBits from hlt)]

theorem decodeCore_of_full (m : SensorModel) {s : State} (h : 40 ≤ s.segcount.toNat) :
    s.decodeCore m =
      if s.writeRaw.cksCalc ≠ s.writeRaw.cksRecv then s.writeRaw.setOutcome .corruptCksum
      else (s.writeRaw.writeValues m).setOutcome .success := by
  rw [State.decodeCore, if_neg (by omega), if_neg (Nat.not_lt.mpr h : ¬ _ < Config.dataBits)]

theorem decodeCore_of_mismatch (m : SensorModel) {s : State} (h : 40 ≤ s.segcount.toNat)
    (hcks : s.writeRaw.cksCalc ≠ s.writeRaw.cksRecv) : s.decodeCore m = s.writeRaw.setOutcome .corruptCksum := by
  rw [decodeCore_of_full m h, if_pos hcks]

theorem decodeCore_of_match (m : SensorModel) {s : State} (h : 40 ≤ s.segcount.toNat)
    (hcks : s.writeRaw.cksCalc = s.writeRaw.cksRecv) :
    s.decodeCore m = (s.writeRaw.writeValues m).setOutcome .success := by
  rw [decodeCore_of_full m h, if_neg (not_not.mpr hcks)]

/-- With 40 segments or more, RAW and CKS are written whatever the checksum says (43 R175). -/
theorem decodeCore_writesRaw (m : SensorModel) {s : State} (h : 40 ≤ s.segcount.toNat) :
    (s.decodeCore m).raw = s.writeRaw.raw ∧ (s.decodeCore m).cksRecv = s.writeRaw.cksRecv ∧
      (s.decodeCore m).cksCalc = s.writeRaw.cksCalc := by
  rw [decodeCore_of_full m h]
  split_ifs <;> exact ⟨rfl, rfl, rfl⟩

/-- Where the checksum matches, the values of the bytes are written (43 R179). -/
theorem decodeCore_success {m : SensorModel} {s : State} (hc : 40 ≤ s.segcount.toNat)
    (hcks : (s.decodeCore m).cksCalc = (s.decodeCore m).cksRecv) :
    (s.decodeCore m).outcome = .success ∧
      (s.decodeCore m).hum = BitVec.ofInt 16 (humidity m (s.dataByte 0) (s.dataByte 1)) ∧
      (s.decodeCore m).temp = BitVec.ofInt 16 (temperature m (s.dataByte 2) (s.dataByte 3)) := by
  obtain ⟨-, hrecv, hcalc⟩ := decodeCore_writesRaw m hc
  rw [decodeCore_of_match m hc (by rwa [← hcalc, ← hrecv])]
  exact ⟨rfl, rfl, rfl⟩

/-- Where the checksum does not match, HUM and TEMP keep their values (43 R179). -/
theorem decodeCore_mismatch {m : SensorModel} {s : State} (hc : 40 ≤ s.segcount.toNat)
    (hcks : (s.decodeCore m).cksCalc ≠ (s.decodeCore m).cksRecv) :
    (s.decodeCore m).outcome = .corruptCksum ∧ (s.decodeCore m).hum = s.hum ∧ (s.decodeCore m).temp = s.temp := by
  obtain ⟨-, hrecv, hcalc⟩ := decodeCore_writesRaw m hc
  rw [decodeCore_of_mismatch m hc (by rwa [← hcalc, ← hrecv])]
  exact ⟨rfl, rfl, rfl⟩

/-- Every DECODE writes one of the four outcomes (43 R170). -/
theorem decodeCore_outcome_ne_none (m : SensorModel) (s : State) : (s.decodeCore m).outcome ≠ .none := by
  unfold State.decodeCore
  split_ifs <;> simp

/-- Settles O25: below 40 segments DecodeCore writes the outcome and nothing else. -/
theorem decodeCountsSegments : Obligations.DecodeCountsSegments := by
  intro s i hb hi
  obtain ⟨m, rfl⟩ := eq_decodeInstr hi
  rw [exec_decodeInstr m hb]
  refine ⟨fun hempty => ?_, fun hpos hle => ?_⟩
  · rw [decodeCore_of_empty m hempty]
    rfl
  · rw [decodeCore_of_short m hpos (by omega)]
    rfl

/-- Settles O31: `decodeCore_frame` is what a DECODE leaves as it was. -/
theorem decodeWritesOnlyResults : Obligations.DecodeWritesOnlyResults := by
  intro s i hb hi
  obtain ⟨m, rfl⟩ := eq_decodeInstr hi
  exact ⟨_, exec_decodeInstr m hb, congrArg (fun t => { t with bus := s.bus }) (decodeCore_frame m s),
    decodeCore_outcome_ne_none m s, rfl⟩

/-! ### The bytes -/

/-- `packByte` is the number whose bits are given most significant first (43 R174). -/
theorem packByte_eq_ofFnBE (bit : Fin 8 → Bool) : packByte bit = BitVec.ofFnBE bit := by
  have hsum : packByte bit = BitVec.ofNat 8 (Nat.ofBits (bit ∘ Fin.rev)) := by
    rw [packByte]
    congr 1
    simp only [Nat.ofBits, Fin.foldr_succ, Fin.foldr_zero]
    dsimp
    ring
  rw [hsum, ← BitVec.toNat_ofFnBE, BitVec.ofNat_toNat, BitVec.setWidth_eq]

/-- Bit 7 - m of a byte is the bit packed as number m (43 R174). -/
theorem packByte_getLsbD (bit : Fin 8 → Bool) (m : Fin 8) : (packByte bit).getLsbD (7 - m.val) = bit m := by
  have hrev : 7 - m.val = m.rev.val := by
    rw [Fin.val_rev]
    omega
  rw [packByte_eq_ofFnBE, hrev, BitVec.getLsbD_ofFnBE, dif_pos m.rev.isLt, Fin.eta, Fin.rev_rev]

/-- The data segments of 40 + j entries, j below 2, start at entry j (43 R172). -/
theorem dataSegment_eq {s : State} {j : Nat} (hj : j < 2) (hc : s.segcount.toNat = 40 + j) (k : Fin 40) :
    s.dataSegment k = s.seg[j + k.val]'(by omega) := by
  have hstart : s.startOffset.val = j := by
    unfold State.startOffset Config.dataBits
    split_ifs <;> simp <;> omega
  simp only [State.dataSegment, hstart]

/-- Bit 7 - m of byte b says whether its segment is longer than BIT_THR (43 R172, R173, R174). -/
theorem dataByte_getLsbD {s : State} {j : Nat} (hj : j < 2) (hc : s.segcount.toNat = 40 + j) (b : Fin 5) (m : Fin 8) :
    (s.dataByte b).getLsbD (7 - m.val) =
      decide (s.bitThr.toNat < (s.seg[j + (8 * b.val + m.val)]'(by omega)).toNat) := by
  rw [State.dataByte, packByte_getLsbD, State.dataBit, dataSegment_eq hj hc]
  rfl

/-- A concatenation as a sum: its two parts share no bit. -/
theorem toNat_append_eq_add {m n : Nat} (x : BitVec m) (y : BitVec n) : (x ++ y).toNat = x.toNat * 2 ^ n + y.toNat := by
  rw [BitVec.toNat_append, ← Nat.shiftLeft_add_eq_or_of_lt y.isLt, Nat.shiftLeft_eq]

/-- RAW as a number: byte 0 lowest, byte 3 highest (43 R175). -/
theorem writeRaw_raw_toNat (s : State) :
    s.writeRaw.raw.toNat = (s.dataByte 3).toNat * 2 ^ 24 + (s.dataByte 2).toNat * 2 ^ 16 +
      (s.dataByte 1).toNat * 2 ^ 8 + (s.dataByte 0).toNat := by
  simp only [State.writeRaw, toNat_append_eq_add]
  ring

/-- The bytes as numbers, read back from RAW (43 R175). -/
theorem dataByte_toNat (s : State) :
    (s.dataByte 0).toNat = s.writeRaw.raw.toNat % 256 ∧ (s.dataByte 1).toNat = s.writeRaw.raw.toNat / 256 % 256 ∧
      (s.dataByte 2).toNat = s.writeRaw.raw.toNat / 65536 % 256 ∧
      (s.dataByte 3).toNat = s.writeRaw.raw.toNat / 16777216 := by
  have h0 := (s.dataByte 0).isLt
  have h1 := (s.dataByte 1).isLt
  have h2 := (s.dataByte 2).isLt
  have hraw := writeRaw_raw_toNat s
  omega

/-- Bits 8b to 8b + 7 of RAW are byte b (43 R175). -/
theorem writeRaw_raw_extractLsb' (s : State) (b : Fin 4) :
    s.writeRaw.raw.extractLsb' (8 * b.val) 8 = s.dataByte b.castSucc := by
  obtain ⟨h0, h1, h2, h3⟩ := dataByte_toNat s
  have hlt := (s.dataByte 3).isLt
  apply BitVec.eq_of_toNat_eq
  rw [BitVec.extractLsb'_toNat, Nat.shiftRight_eq_div_pow]
  fin_cases b <;> simp <;> omega

/-- Settles O26: the bits of a byte are those of `dataByte_getLsbD`, and RAW and CKS hold the bytes. -/
theorem decodePacksThresholdedBits : Obligations.DecodePacksThresholdedBits := by
  intro s i j hj hb hi hc
  obtain ⟨m, rfl⟩ := eq_decodeInstr hi
  obtain ⟨hraw, hrecv, -⟩ := decodeCore_writesRaw m (s := s) (by omega)
  refine ⟨_, exec_decodeInstr m hb, fun b k hb5 => ?_⟩
  rw [← dataByte_getLsbD hj hc ⟨b, hb5⟩ k, State.respond_raw, State.respond_cksRecv, hraw, hrecv]
  split_ifs with hb4
  · rw [show s.dataByte ⟨b, hb5⟩ = _ from (writeRaw_raw_extractLsb' s ⟨b, hb4⟩).symm, BitVec.getLsbD_extractLsb',
      decide_eq_true (by omega), Bool.true_and]
  · have hlast : (⟨b, hb5⟩ : Fin 5) = 4 := Fin.ext (show b.val = 4 by omega)
    rw [hlast]
    rfl

/-! ### The checksum -/

/-- The checksum is the sum of the bytes, as bytes (43 R176). -/
theorem checksum_eq_add (b0 b1 b2 b3 : Byte) : checksum b0 b1 b2 b3 = b0 + b1 + b2 + b3 := by
  apply BitVec.eq_of_toNat_eq
  simp [checksum]

/-- Changing one bit of a byte changes the byte. -/
theorem xor_bit_ne (b : Byte) (p : Fin 8) : b ^^^ (1#8 <<< p.val) ≠ b := by
  have hbit : 1#8 <<< p.val ≠ 0#8 := by
    revert p
    decide
  simpa using (BitVec.xor_right_inj b (y := 0#8)).not.mpr hbit

/-- Settles O28: a sum of bytes that keeps its value with all but one term kept has that term kept too. -/
theorem singleBitChangeBreaksChecksum : Obligations.SingleBitChangeBreaksChecksum := by
  rintro b0 b1 b2 b3 _ p rfl
  simp only [checksum_eq_add, ne_eq, BitVec.add_right_inj, BitVec.add_left_inj]
  exact ⟨xor_bit_ne b0 p, xor_bit_ne b1 p, xor_bit_ne b2 p, xor_bit_ne b3 p, (xor_bit_ne _ p).symm⟩

/-- CKS[15:8] is the sum of the bytes of RAW (43 R175, R176). -/
theorem writeRaw_cksCalc_toNat (s : State) :
    s.writeRaw.cksCalc.toNat =
      (s.writeRaw.raw.toNat % 256 + s.writeRaw.raw.toNat / 256 % 256 + s.writeRaw.raw.toNat / 65536 % 256 +
        s.writeRaw.raw.toNat / 16777216) % 256 := by
  obtain ⟨h0, h1, h2, h3⟩ := dataByte_toNat s
  rw [← h0, ← h1, ← h2, ← h3]
  exact BitVec.toNat_ofNat .. |>.trans (Nat.mod_mod ..)

/-- Settles O27: DecodeCore compares the two bytes of CKS that it leaves. -/
theorem decodeChecksTheSum : Obligations.DecodeChecksTheSum := by
  intro s i hb hi hc
  obtain ⟨m, rfl⟩ := eq_decodeInstr hi
  obtain ⟨hraw, -, hcalc⟩ := decodeCore_writesRaw m hc
  refine ⟨_, exec_decodeInstr m hb, ?_, fun hcks => (decodeCore_success hc hcks).1, decodeCore_mismatch hc⟩
  rw [State.respond_raw, State.respond_cksCalc, hraw, hcalc]
  exact writeRaw_cksCalc_toNat s

/-! ### The values -/

/-- Model A's humidity fits in 16 bits (43 R177). -/
theorem humA_toNat (b0 b1 : Byte) : (BitVec.ofInt 16 (humA b0 b1)).toNat = 10 * b0.toNat + b1.toNat := by
  have h0 := b0.isLt
  have h1 := b1.isLt
  have hval : humA b0 b1 = (10 * b0.toNat + b1.toNat : Nat) := by simp [humA]
  rw [hval, BitVec.ofInt_natCast, BitVec.toNat_ofNat, Nat.mod_eq_of_lt (by omega)]

/-- Model A's temperature fits in 16 bits, signed (43 R177). -/
theorem tempA_toInt (b2 b3 : Byte) : (BitVec.ofInt 16 (tempA b2 b3)).toInt = 10 * b2.toInt + b3.toInt := by
  have h2 := And.intro (BitVec.le_toInt b2) (BitVec.toInt_lt (x := b2))
  have h3 := And.intro (BitVec.le_toInt b3) (BitVec.toInt_lt (x := b3))
  apply BitVec.toInt_ofInt_eq_self (by decide) <;> simp only [tempA] <;> omega

/-- Model B's humidity is its two bytes side by side (43 R178). -/
theorem ofInt_humB (b0 b1 : Byte) : BitVec.ofInt 16 (humB b0 b1) = b0 ++ b1 := by
  have hval : humB b0 b1 = (b0 ++ b1).toNat := congrArg Nat.cast (toNat_append_eq_add b0 b1).symm
  rw [hval, BitVec.ofInt_natCast, BitVec.ofNat_toNat, BitVec.setWidth_eq]

/-- Two bytes side by side as a signed number: the high byte carries the sign. -/
theorem toInt_append_byte (b2 b3 : Byte) : (b2 ++ b3).toInt = b2.toInt * 256 + b3.toNat := by
  rw [mul_comm]
  exact BitVec.toInt_append

/-- Model B's temperature is its two bytes side by side, as two's complement (43 R178). -/
theorem ofInt_tempB (b2 b3 : Byte) : BitVec.ofInt 16 (tempB b2 b3) = b2 ++ b3 := by
  rw [tempB, ← toInt_append_byte]
  exact BitVec.ofInt_toInt

/-- Settles O29: model A's values fit in 16 bits, and RAW holds their bytes. -/
theorem decodeModelAValues : Obligations.DecodeModelAValues := by
  refine ⟨fun s hb hc => ⟨_, exec_decodeInstr .a hb, fun hcks => ?_⟩, by decide, by decide, by decide⟩
  obtain ⟨hout, hhum, htemp⟩ := decodeCore_success hc hcks
  obtain ⟨hraw, -, -⟩ := decodeCore_writesRaw .a hc
  obtain ⟨h0, h1, -, -⟩ := dataByte_toNat s
  have h2 : s.writeRaw.raw.extractLsb' 16 8 = s.dataByte 2 := writeRaw_raw_extractLsb' s 2
  have h3 : s.writeRaw.raw.extractLsb' 24 8 = s.dataByte 3 := writeRaw_raw_extractLsb' s 3
  simp only [State.respond_outcome, State.respond_hum, State.respond_temp, State.respond_raw, hraw]
  refine ⟨hout, ?_, ?_⟩
  · rw [hhum, ← h0, ← h1]
    exact humA_toNat ..
  · rw [htemp, h2, h3]
    exact tempA_toInt ..

/-- Settles O30: model B's values are their bytes side by side, which 16 bits hold, and RAW holds the bytes. -/
theorem decodeModelBValues : Obligations.DecodeModelBValues := by
  refine ⟨fun s hb hc => ⟨_, exec_decodeInstr .b hb, fun hcks => ?_⟩, by decide, by decide⟩
  obtain ⟨hout, hhum, htemp⟩ := decodeCore_success hc hcks
  obtain ⟨hraw, -, -⟩ := decodeCore_writesRaw .b hc
  obtain ⟨h0, h1, -, h3n⟩ := dataByte_toNat s
  have h2 : s.writeRaw.raw.extractLsb' 16 8 = s.dataByte 2 := writeRaw_raw_extractLsb' s 2
  have h3 : s.writeRaw.raw.extractLsb' 24 8 = s.dataByte 3 := writeRaw_raw_extractLsb' s 3
  have htemp' := htemp.trans (ofInt_tempB ..)
  simp only [State.respond_outcome, State.respond_hum, State.respond_temp, State.respond_raw, hraw]
  refine ⟨hout, ?_, ?_, ?_⟩
  · rw [hhum.trans (ofInt_humB ..), ← h0, ← h1]
    exact toNat_append_eq_add ..
  · rw [htemp', h2, ← h3n]
    exact toInt_append_byte ..
  · rw [htemp', h2, h3]

/-! ### Decoding again -/

/-- The bytes depend on the segments, their number and BIT_THR alone (43 R172, R173, R174). -/
theorem dataByte_congr {s t : State} (hcount : t.segcount = s.segcount) (hthr : t.bitThr = s.bitThr)
    (hseg : t.seg = s.seg) : t.dataByte = s.dataByte := by
  funext b
  simp only [State.dataByte, State.dataBit, State.dataSegment, State.startOffset, hcount, hthr, hseg]
  rfl

theorem decodeCore_segcount (m : SensorModel) (s : State) : (s.decodeCore m).segcount = s.segcount :=
  congrArg (·.segcount) (decodeCore_frame m s)

theorem decodeCore_dataByte (m : SensorModel) (s : State) : (s.decodeCore m).dataByte = s.dataByte :=
  dataByte_congr (decodeCore_segcount m s) (congrArg (·.bitThr) (decodeCore_frame m s))
    (congrArg (·.seg) (decodeCore_frame m s))

/-- DecodeCore does not look at the response. -/
theorem decodeCore_respond (m : SensorModel) (s : State) (r : Response) :
    (s.respond r).decodeCore m = (s.decodeCore m).respond r := by
  have hbytes : (s.respond r).dataByte = s.dataByte := dataByte_congr rfl rfl rfl
  have hraw : (s.respond r).writeRaw = s.writeRaw.respond r := by
    simp only [State.writeRaw, hbytes]
    rfl
  unfold State.decodeCore
  rw [hraw]
  simp only [apply_ite (State.respond · r)]
  rfl

/-- Where DecodeCore has written the bytes, writing them again changes nothing (43 R175). -/
theorem writeRaw_decodeCore (m : SensorModel) {s : State} (hc : 40 ≤ s.segcount.toNat) :
    (s.decodeCore m).writeRaw = s.decodeCore m := by
  obtain ⟨hraw, hrecv, hcalc⟩ := decodeCore_writesRaw m hc
  calc (s.decodeCore m).writeRaw
      = { s.decodeCore m with raw := s.writeRaw.raw, cksRecv := s.writeRaw.cksRecv,
                              cksCalc := s.writeRaw.cksCalc } := by
        simp only [State.writeRaw, decodeCore_dataByte]
    _ = s.decodeCore m := by rw [← hraw, ← hrecv, ← hcalc]

/-- A second DecodeCore of the same log, under any model, leaves RAW, CKS and OUTCOME, and under the same model
everything (43 R182). -/
theorem decodeCore_again {m n : SensorModel} {s t u : State} (ht : s.decodeCore m = t) (hu : t.decodeCore n = u) :
    u.raw = t.raw ∧ u.cksRecv = t.cksRecv ∧ u.cksCalc = t.cksCalc ∧ u.outcome = t.outcome ∧ (n = m → u = t) := by
  have hcount : t.segcount = s.segcount := ht ▸ decodeCore_segcount m s
  rcases Nat.lt_or_ge s.segcount.toNat 40 with hlt | hc
  · rcases Nat.eq_zero_or_pos s.segcount.toNat with hempty | hpos
    · rw [decodeCore_of_empty n (by rwa [hcount])] at hu
      rw [decodeCore_of_empty m hempty] at ht
      subst ht hu
      exact ⟨rfl, rfl, rfl, rfl, fun _ => rfl⟩
    · rw [decodeCore_of_short n (by rwa [hcount]) (by rwa [hcount])] at hu
      rw [decodeCore_of_short m hpos hlt] at ht
      subst ht hu
      exact ⟨rfl, rfl, rfl, rfl, fun _ => rfl⟩
  · have hraw : t.writeRaw = t := ht ▸ writeRaw_decodeCore m hc
    by_cases hcks : t.cksCalc = t.cksRecv
    · obtain ⟨hout, hhum, htemp⟩ := decodeCore_success (m := m) hc (ht ▸ hcks)
      rw [decodeCore_of_match n (by rwa [hcount]) (by rwa [hraw]), hraw] at hu
      subst hu
      refine ⟨rfl, rfl, rfl, (ht ▸ hout).symm, ?_⟩
      rintro rfl
      have hbytes : t.dataByte = s.dataByte := ht ▸ decodeCore_dataByte n s
      rw [State.writeValues, hbytes, ← hhum, ← htemp, ht, State.setOutcome, ← hout, ht]
    · obtain ⟨hout, -⟩ := decodeCore_mismatch (m := m) hc (ht ▸ hcks)
      rw [decodeCore_of_mismatch n (by rwa [hcount]) (by rwa [hraw]), hraw, ← hout, ht] at hu
      subst hu
      exact ⟨rfl, rfl, rfl, rfl, fun _ => rfl⟩

/-- Settles O32: a DECODE leaves the block idle, so both commands perform DecodeCore. -/
theorem decodeAgainGivesTheSame : Obligations.DecodeAgainGivesTheSame := by
  intro s t u i k hb hi hk ht hu
  obtain ⟨m, rfl⟩ := eq_decodeInstr hi
  obtain ⟨n, rfl⟩ := eq_decodeInstr hk
  rw [exec_decodeInstr m hb, Host.Outcome.next.injEq] at ht
  have hidle : t.busy = false := by
    rw [← ht]
    exact (congrArg State.busy (decodeCore_frame m s)).trans hb
  rw [exec_decodeInstr n hidle, Host.Outcome.next.injEq, ← ht, decodeCore_respond] at hu
  generalize hfirst : s.decodeCore m = t' at ht hu
  generalize hsecond : t'.decodeCore n = u' at hu
  obtain ⟨hraw, hrecv, hcalc, hout, hsame⟩ := decodeCore_again hfirst hsecond
  subst ht hu
  refine ⟨hraw, hrecv, hcalc, hout, fun hnm => ?_⟩
  rw [hsame (decodeInstr_injective hnm)]
  rfl

end Sys2Proof.Machine
end

section
/-! The statements about control and register access: what RD.STATUS reads, the reserved reads and the ignored writes,
and what the control commands and the configuration writes do while idle. -/

namespace Sys2Proof

/-! ### Reserved and ignored offsets -/

/-- The reserved offsets are the multiples of 4 in their two ranges (10 R35). -/
theorem reservedOffset_iff (off : Byte) :
    reservedOffset off = true ↔
      off.toNat % 4 = 0 ∧ ((0x30 ≤ off.toNat ∧ off.toNat ≤ 0x3C) ∨ (0xE4 ≤ off.toNat ∧ off.toNat ≤ 0xFC)) := by
  simp only [reservedOffset, Bool.and_eq_true, Bool.or_eq_true, decide_eq_true_eq, alignedOffset_iff]

/-- The ignored offsets are STATUS, TICKS and the multiples of 4 from LINE on (44 R212). -/
theorem ignoredOffset_iff (off : Byte) :
    ignoredOffset off = true ↔
      off.toNat % 4 = 0 ∧ ((off.toNat = 0x04 ∨ off.toNat = 0x08) ∨ (0x18 ≤ off.toNat ∧ off.toNat ≤ 0xFC)) := by
  simp only [ignoredOffset, Bool.and_eq_true, Bool.or_eq_true, beq_iff_eq, decide_eq_true_eq, alignedOffset_iff]

end Sys2Proof

namespace Sys2Proof.Machine

/-- Settles O19: the offset is reserved, so the access decodes to RD.RSVD, which hands back 0. -/
theorem reservedReadsReturnZero : Obligations.ReservedReadsReturnZero := by
  intro s off rest hag hr haligned hrange
  have hdecode : decode (.read .b32 off) = .ok (.rdRsvd off) :=
    decode_read_reserved ((reservedOffset_iff off).mpr ⟨haligned, hrange⟩)
  exact ⟨rfl, step_exec hag hr hdecode⟩

/-- Settles O20: each of the offsets is ignored, so the access decodes to WR.IGN, which has no effect. -/
theorem ignoredWritesChangeNothing : Obligations.IgnoredWritesChangeNothing := by
  intro s off v rest hag hr haligned hrange
  have hignored : ignoredOffset off = true := (ignoredOffset_iff off).mpr ⟨haligned, by omega⟩
  exact ⟨rfl, step_exec hag hr (decode_write_ignored hignored v)⟩

/-! ### What a read of STATUS shows -/

/-- STATUS as a number: each field's code at the field's lowest bit (10 R21, R22). -/
theorem statusWord_toNat (s : State) :
    s.statusWord.toNat = s.segcount.toNat * 2 ^ 16 + s.outcome.code.toNat * 2 ^ 8 + s.ill.toNat * 2 ^ 6 +
      s.ovr.toNat * 2 ^ 5 + s.endReason.code.toNat * 2 ^ 4 + s.act.code.toNat * 2 + s.busy.toNat := by
  simp only [State.statusWord, toNat_append_eq_add, BitVec.toNat_ofNat, BitVec.toNat_ofBool]
  ring

/-- Settles O14: RD.STATUS hands back `statusWord`, whose fields hold the codes of `statusWord_toNat`. -/
theorem statusReadsItsFields : Obligations.StatusReadsItsFields := by
  intro s
  refine ⟨s.statusWord, rfl, ?_⟩
  rw [statusWord_toNat]
  -- Term by term: what is left is OUTCOME, END, ACT and BUSY, each a code against its value.
  congr 7
  · cases s.outcome <;> rfl
  · cases s.endReason <;> rfl
  · cases s.act <;> rfl
  · rw [State.busy]
    cases s.act <;> rfl

/-! ### Commands and configuration writes -/

/-- Settles O21: an idle block performs a guarded write. -/
theorem configurationWrites : Obligations.ConfigurationWrites := fun _ v hb =>
  ⟨guardedWrite_idle (f := State.setArg v) hb, guardedWrite_idle (f := State.setBreakThr v) hb,
    guardedWrite_idle (f := State.setBitThr v) hb⟩

/-- Settles O23: an idle block performs a guarded write. -/
theorem nopAndClrerr : Obligations.NopAndClrerr := fun _ hb =>
  ⟨guardedWrite_idle (f := id) hb, guardedWrite_idle (f := State.clearErrors) hb⟩

end Sys2Proof.Machine
end

section
/-! The statements about the exceptions: the checks on an access and their order, the error flags, the host's no-response
countdown, and what a probe leaves. -/

namespace Sys2Proof

/-! ### Which accesses the busy rule guards -/

/-- No write to an ignored offset is guarded (44 R212, 60 R221). -/
theorem isGuardedWrite_of_ignoredOffset {off : Byte} (h : ignoredOffset off = true) (sz : AccessSize) (v : Word) :
    (Access.write sz off v).isGuardedWrite = false := by
  rw [ignoredOffset_iff] at h
  simp only [Access.isGuardedWrite, Bool.or_eq_false_iff, beq_eq_false_iff_ne, ne_eq, ← BitVec.toNat_inj,
    BitVec.toNat_ofNat]
  omega

/-- An access that is an instruction is guarded by the busy rule exactly when it writes a guarded register (60 R221). -/
theorem isGuarded_of_decode {a : Access} {i : Instr} (h : decode a = .ok i) : i.isGuarded = a.isGuardedWrite := by
  obtain ⟨rfl, hwf⟩ := encodeOfDecode a i h
  cases i with
  | wrIgn off v => exact (isGuardedWrite_of_ignoredOffset hwf .b32 v).symm
  | _ => rfl

/-- An admitted access that is no guarded write is an instruction: only a write to CMD can be illegal (60 R222). -/
theorem decode_ok_of_not_guarded {a : Access} (ha : a.admitted = true) (hg : a.isGuardedWrite = false) :
    ∃ i, decode a = .ok i := by
  rw [Access.admitted, Bool.and_eq_true, beq_iff_eq] at ha
  obtain ⟨hsize, hoff⟩ := ha
  cases a with
  | read sz off =>
    obtain rfl : sz = .b32 := hsize
    rw [decode_read_aligned (off := off) hoff]
    exact decodeRegister_ok (isWrite := false) hoff nofun 0#32
  | write sz off v =>
    obtain rfl : sz = .b32 := hsize
    have hcmd : off ≠ 0#8 := by
      rintro rfl
      cases hg
    rw [decode_write_aligned (off := off) hoff hcmd]
    exact decodeRegister_ok hoff (fun _ => hcmd) v

/-- A word that OP, Z1, Z2 or P makes illegal (30 R74 to R76). -/
def IllegalWord (w : Word) : Prop :=
  8 ≤ w.toNat % 16 ∨ w.toNat / 16 % 16 ≠ 0 ∨ w.toNat / 512 ≠ 0 ∨
    (w.toNat / 256 % 2 = 1 ∧ w.toNat % 16 ∈ [0, 1, 4, 5, 7])

/-- None of the eleven command words is illegal. -/
theorem not_illegalWord_of_mem_commandTable : ∀ e ∈ commandTable, ¬ IllegalWord e.1 := by
  unfold IllegalWord
  decide

/-- An illegal word is no command, and no malformed access either. -/
theorem decodeCommand_of_illegalWord {w : Word} (h : IllegalWord w) :
    ∃ r, decodeCommand w = .error r ∧ r.isBusError = false := by
  cases hd : decodeCommand w with
  | ok i => exact absurd h (not_illegalWord_of_mem_commandTable _ (decodeCommand_eq_ok_iff.mp hd))
  | error r => exact ⟨r, rfl, isBusError_of_decodeCommand hd⟩

end Sys2Proof

namespace Sys2Proof.Machine

/-! ### The step of a guarded write and of an illegal word -/

/-- An illegal command word is a guarded write that raises ILL (60 R222). -/
theorem rejectAccess_illegal {r : Reject} (hr : r.isBusError = false) (a : Access) (s : State) :
    rejectAccess r a s = guardedWrite State.raiseIll s := by
  simp only [rejectAccess, hr, illegalCommand, Bool.false_eq_true, if_false]

/-- A guarded write is dropped while busy, whether it is an instruction or an illegal word (60 R221, R225). -/
theorem step_guardedWrite_busy {s : State} {a : Access} {rest : List Event} (hag : s.agenda = .access a :: rest)
    (hr : s.resetAsserted = false) (hb : s.busy = true) (ha : a.admitted = true) (hg : a.isGuardedWrite = true) :
    step s = .next { s with agenda := rest, bus := .done, ovr := true } := by
  cases hd : decode a with
  | ok i =>
    rw [step_exec hag hr hd, exec_guarded ((isGuarded_of_decode hd).trans hg)]
    exact guardedWrite_busy (s := { s with agenda := rest }) hb
  | error r =>
    rw [step_reject hag hr hd, rejectAccess_illegal (isBusError_of_admitted ha hd)]
    exact guardedWrite_busy (s := { s with agenda := rest }) hb

/-- An illegal command word sets ILL while idle (60 R222). -/
theorem step_illegal_idle {s : State} {a : Access} {r : Reject} {rest : List Event}
    (hag : s.agenda = .access a :: rest) (hr : s.resetAsserted = false) (hb : s.busy = false)
    (hd : decode a = .error r) (hill : r.isBusError = false) :
    step s = .next { s with agenda := rest, bus := .done, ill := true } := by
  rw [step_reject hag hr hd, rejectAccess_illegal hill]
  exact guardedWrite_idle (s := { s with agenda := rest }) hb

/-- Settles O9: a guarded write is dropped, and a write to an ignored offset is WR.IGN. -/
theorem busyWriteIsDropped : Obligations.BusyWriteIsDropped := by
  intro s off v rest hag hr hb
  refine ⟨fun hoff => ?_, fun hignored => step_exec hag hr (decode_write_ignored hignored v)⟩
  obtain rfl | rfl | rfl | rfl := hoff <;>
    exact step_guardedWrite_busy hag hr hb (Laws.AdmittedAccess.admitted_write rfl) rfl

/-- Settles O10: an illegal word is none of the commands, so its write is rejected as illegal. -/
theorem illegalCommandSetsIll : Obligations.IllegalCommandSetsIll := by
  intro s w rest hag hr hb hw
  obtain ⟨r, hd, hill⟩ := decodeCommand_of_illegalWord hw
  exact step_illegal_idle hag hr hb ((decode_command w).trans hd) hill

/-- Settles O11: what is not admitted is BUSERR; a guarded write while busy is dropped; of what is left, the rejected
accesses are guarded, so the block is idle and ILL is set. -/
theorem accessCheckOrder : Obligations.AccessCheckOrder := by
  intro s a rest hag hr
  refine ⟨fun hnot => ?_, fun ha hb hg => step_guardedWrite_busy hag hr hb ha hg, fun ha hfree => ?_⟩
  · obtain ⟨r, hd, hbus⟩ := decode_of_not_admitted hnot
    rw [step_reject hag hr hd]
    exact rejectAccess_busError hbus a { s with agenda := rest }
  · cases hd : decode a with
    | ok i => exact step_exec hag hr hd
    | error r =>
      have hill : r.isBusError = false := isBusError_of_admitted ha hd
      have hb : s.busy = false := hfree.resolve_right fun hg => by
        obtain ⟨i, hi⟩ := decode_ok_of_not_guarded ha hg
        cases hd.symm.trans hi
      exact ⟨hill, step_illegal_idle hag hr hb hd hill⟩

/-- Settles O12: a rejected access is BUSERR, ILL or OVR, and a guarded write while busy is OVR. -/
theorem errorsSetAtMostOneFlag : Obligations.ErrorsSetAtMostOneFlag := by
  rintro s a rest hag hr (⟨r, hd⟩ | ⟨hb, i, hd, hg⟩)
  · rw [step_reject hag hr hd]
    rcases rejectAccess_cases (r := r) (a := a) (s := { s with agenda := rest }) rfl with
      ⟨_, h | h⟩ | ⟨_, _, h⟩ | ⟨_, _, h⟩
    · exact ⟨_, _, .inl h⟩
    · exact ⟨.writeError, s.errReads, .inl h⟩
    · exact ⟨.done, s.errReads, .inr (.inr h)⟩
    · exact ⟨.done, s.errReads, .inr (.inl h)⟩
  · rw [step_exec hag hr hd, exec_guarded hg]
    exact ⟨.done, s.errReads, .inr (.inl (guardedWrite_busy (s := { s with agenda := rest }) hb))⟩

/-! ### The flags are sticky -/

/-- Every error flag of `s` is one of `t` (60 R229). -/
def FlagsKept (s t : State) : Prop := (s.ovr = true → t.ovr = true) ∧ (s.ill = true → t.ill = true)

/-- No tick clears a flag, under reset or not: a DELAY step and the sampler's steps leave the flags alone. -/
theorem tick_flagsKept {e : Level} {s t : State} (h : tick e s = .next t) : FlagsKept s t := by
  cases hr : s.resetAsserted with
  | true =>
    rw [tick_reset hr] at h
    cases h
    exact ⟨id, id⟩
  | false =>
    by_cases hdelay : s.act = .delay
    · rw [tick_run hr, sequencerStep_delay (u := s.advance e) hdelay] at h
      cases h
      exact ⟨id, id⟩
    · have hframe := tick_sameOutsideSampler hr hdelay h
      exact ⟨(congrArg State.ovr hframe :).trans, (congrArg State.ill hframe :).trans⟩

/-- A decode works on the log and the result registers alone (43 R170). -/
theorem decodeCore_flagsKept (m : SensorModel) (s : State) : FlagsKept s (s.decodeCore m) :=
  have hframe := decodeCore_frame m s
  ⟨(congrArg State.ovr hframe :).trans, (congrArg State.ill hframe :).trans⟩

/-- Of the guarded writes only CLRERR clears a flag (44 R201). -/
theorem effectOf_flagsKept {i : Instr} (hclr : i ≠ .clrerr) (s : State) : FlagsKept s (effectOf i s) := by
  cases i with
  | clrerr => exact absurd rfl hclr
  | decodeA | decodeB => exact decodeCore_flagsKept _ s
  | _ => exact ⟨id, id⟩

/-- An access clears a flag only as a CLRERR that an idle block accepts (60 R229). -/
theorem performAccess_flags {a : Access} {s t : State} (h : performAccess a s = .next t) :
    FlagsKept s t ∨ decode a = .ok .clrerr ∧ s.busy = false := by
  obtain ⟨_, ⟨r, n, rfl⟩ | ⟨_, rfl⟩ | ⟨_, rfl⟩ | ⟨hb, i, hd, _, rfl⟩⟩ := performAccess_effect h
  · exact .inl ⟨id, id⟩
  · exact .inl ⟨fun _ => rfl, id⟩
  · exact .inl ⟨id, fun _ => rfl⟩
  · by_cases hclr : i = .clrerr
    · exact .inr ⟨hclr ▸ hd, hb⟩
    · exact .inl (effectOf_flagsKept hclr s)

/-- Settles O55: of the four kinds of event only a CLRERR accepted while idle and an effective release clear a flag. -/
theorem errorFlagsAreSticky : Obligations.ErrorFlagsAreSticky := by
  intro s t h hcleared
  have hnot : ¬ FlagsKept s t := by
    rintro ⟨hovr, hill⟩
    rcases hcleared with ⟨hs, ht⟩ | ⟨hs, ht⟩
    · exact Bool.false_ne_true (ht.symm.trans (hovr hs))
    · exact Bool.false_ne_true (ht.symm.trans (hill hs))
  obtain ⟨rest, ⟨e, _, h⟩ | ⟨a, hag, h⟩ | ⟨_, rfl⟩ | ⟨d, e, hag, rfl⟩⟩ := step_inv h
  · exact absurd (tick_flagsKept h) hnot
  · obtain ⟨hd, hb⟩ := (performAccess_flags h).resolve_left hnot
    exact .inl ⟨a, rest, hag, hd, hb⟩
  · exact absurd ⟨id, id⟩ hnot
  · cases hr : s.resetAsserted with
    | false => exact absurd (by simp [State.releaseReset, hr, FlagsKept]) hnot
    | true => exact .inr ⟨d, e, rest, hag, rfl⟩

/-! ### The no-response countdown -/

/-- A countdown of n ends with NoDevice at the n-th NO_RESPONSE in a row (60 R246). -/
theorem retryOutcomes_noDevice (r : Bool) (os : List ProbeOutcome) {n : Nat} (hn : 0 < n) :
    retryOutcomes r n (List.replicate n .noResponse ++ os) = .noDevice := by
  induction n with
  | zero => cases hn
  | succ n ih =>
    cases n with
    | zero => rfl
    | succ n => exact ih n.succ_pos

/-- A countdown of n does not end at fewer than n NO_RESPONSE (60 R246). -/
theorem retryOutcomes_exceeded (r : Bool) {n k : Nat} (hk : k < n) :
    retryOutcomes r n (List.replicate k .noResponse) = .exceededRetries := by
  induction k generalizing n with
  | zero => rfl
  | succ k ih =>
    obtain ⟨n, rfl⟩ : ∃ m, n = m + 2 := ⟨n - 2, by omega⟩
    exact ih (n := n + 1) (by omega)

/-- From a countdown of 0, which CORRUPT_RELOAD = 0 leaves, the retries never end with NoDevice (60 R246). -/
theorem retryOutcomes_zero_ne_noDevice (os : List ProbeOutcome) : retryOutcomes false 0 os ≠ .noDevice := by
  induction os with
  | nil => exact nofun
  | cons o os ih =>
    cases o with
    | success h t => exact nofun
    | noResponse | corruptCount | corruptCksum => exact ih

/-- A corrupted frame sets the countdown anew, to NORESP_COUNT or to 0 (60 R246; 90 C9). -/
theorem retryOutcomes_corrupt (r : Bool) (n : Nat) {c : ProbeOutcome} (hc : c = .corruptCount ∨ c = .corruptCksum)
    (os : List ProbeOutcome) :
    retryOutcomes r n (c :: os) = retryOutcomes r (if r then Config.norespCount else 0) os := by
  rcases hc with rfl | rfl <;> rfl

/-- Settles O59: a corrupted frame sets the countdown anew, and each clause is about a countdown of 10 or of 0. -/
theorem retryCountdown : Obligations.RetryCountdown := by
  refine ⟨fun r os => ?_, fun r n hn => ?_, fun n c os hc => ?_, fun n c os hc => ?_, fun n k c hc hk => ?_⟩
  · exact retryOutcomes_noDevice r os (n := Config.norespCount) (Nat.succ_pos 9)
  · exact retryOutcomes_exceeded r hn
  · rw [retryOutcomes_corrupt false n hc]
    exact retryOutcomes_zero_ne_noDevice os
  · rw [retryOutcomes_corrupt true n hc]
    exact retryOutcomes_noDevice true os (n := Config.norespCount) (Nat.succ_pos 9)
  · rw [retryOutcomes_corrupt true n hc]
    exact retryOutcomes_exceeded true hk

/-! ### What a probe leaves -/

/-- The block is out of reset and LINE.DIR is `d`: what no access but a line command changes. -/
structure State.Live (d : Direction) (s : State) : Prop where
  resetAsserted : s.resetAsserted = false
  dir : s.dir = d

/-- The block is live and idle, so that it accepts commands. -/
structure State.Ready (d : Direction) (s : State) : Prop extends State.Live d s where
  act : s.act = .idle

theorem State.Ready.busy {d : Direction} {s : State} (hs : s.Ready d) : s.busy = false :=
  (State.busy_eq_false s).mpr hs.act

theorem drive_tick_live {d : Direction} {e : Level} {s t : State} (hs : s.Live d) (h : drive (.tick e) s = some t) :
    t.Live d := by
  obtain ⟨hdir, hreset, _⟩ := drive_tick hs.resetAsserted h
  exact ⟨hreset, hdir.trans hs.dir⟩

/-- An instruction issued with success ran in a state that is live, and ready, if the bench's was. -/
theorem issue_exec {d : Direction} {i : Instr} {b c : Bench} (hwf : i.wellFormed = true) (hb : b.machine.Live d)
    (h : issue i b = some c) :
    ∃ u : State, u.Live d ∧ (b.machine.Ready d → u.Ready d) ∧ exec i u = .next c.machine := by
  obtain ⟨u, hdir, hreset, hact, he⟩ := issue_inv (decodeOfEncode i hwf) hb.resetAsserted h
  have hlive : u.Live d := ⟨hreset, hdir.trans hb.dir⟩
  exact ⟨u, hlive, fun hready => ⟨hlive, hact hready.act⟩, he⟩

/-- A guarded write that is no line command keeps a live block live, performed or dropped. -/
theorem issue_live {d : Direction} {i : Instr} {b c : Bench} (hwf : i.wellFormed = true)
    (hguarded : i.isGuarded = true) (hline : i.isLineCommand = false) (hb : b.machine.Live d)
    (h : issue i b = some c) : c.machine.Live d := by
  obtain ⟨u, hu, _, he⟩ := issue_exec hwf hb h
  rw [exec_guarded hguarded] at he
  rcases guardedWrite_cases he with ⟨_, hc⟩ | ⟨_, hc⟩ <;> rw [Host.Outcome.next.inj hc]
  · obtain ⟨_, _, _, hreset, _⟩ := effectOf_frame i u
    obtain ⟨hdir, _⟩ := effectOf_sameLine hline u
    exact ⟨hreset.trans hu.resetAsserted, hdir.trans hu.dir⟩
  · exact ⟨hu.resetAsserted, hu.dir⟩

/-- A guarded write that a ready block is given is performed. -/
theorem issue_performed {d : Direction} {i : Instr} {b c : Bench} (hwf : i.wellFormed = true)
    (hguarded : i.isGuarded = true) (hb : b.machine.Ready d) (h : issue i b = some c) :
    ∃ u : State, u.Ready d ∧ c.machine = (effectOf i u).respond .done := by
  obtain ⟨u, _, hready, he⟩ := issue_exec hwf hb.toLive h
  have hu : u.Ready d := hready hb
  rw [exec_guarded hguarded, guardedWrite_idle hu.busy] at he
  exact ⟨u, hu, (Host.Outcome.next.inj he).symm⟩

/-- OD.LOW leaves a ready block ready, with the line driven (41 R126). -/
theorem odLow_ready {d : Direction} {b c : Bench} (hb : b.machine.Ready d) (h : odLow b = some c) :
    c.machine.Ready .output := by
  obtain ⟨u, hu, hc⟩ := issue_performed (i := .lineOut .low) rfl rfl hb h
  rw [hc]
  exact ⟨⟨hu.resetAsserted, rfl⟩, hu.act⟩

/-- OD.HIGH leaves a ready block ready, with the line released (41 R125). -/
theorem odHigh_ready {d : Direction} {b c : Bench} (hb : b.machine.Ready d) (h : odHigh b = some c) :
    c.machine.Ready .input := by
  obtain ⟨u, hu, hc⟩ := issue_performed (i := .lineIn) rfl rfl hb h
  rw [hc]
  exact ⟨⟨hu.resetAsserted, rfl⟩, hu.act⟩

/-! #### The waits -/

/-- A poll of STATUS moves nothing, and it shows an idle block by BUSY = 0 (20 R54, 10 R21). -/
theorem pollOnce_status {d : Direction} {s t : State} {v : Word} (hs : s.Live d)
    (h : pollOnce .rdStatus s = some (v, t)) : t.Live d ∧ ((!v.getLsbD 0) = true → t.Ready d) := by
  simp only [pollOnce, Option.bind_eq_some_iff, Option.map_eq_some_iff, Prod.mk.injEq] at h
  obtain ⟨_, hdrive, w, hread, rfl, rfl⟩ := h
  cases drive_access (i := .rdStatus) rfl hs.resetAsserted hdrive
  cases hread
  refine ⟨⟨hs.resetAsserted, hs.dir⟩, fun hbit => ⟨⟨hs.resetAsserted, hs.dir⟩, ?_⟩⟩
  rw [statusWord_getLsbD_zero, Bool.not_eq_true'] at hbit
  exact (State.busy_eq_false _).mp hbit

/-- Polling STATUS until BUSY is 0 ends in a ready block. -/
theorem pollUntil_ready {d : Direction} {s t : State} {es es' : List Level} (hs : s.Live d)
    (h : pollUntil .rdStatus (fun v => !v.getLsbD 0) s es = some (t, es')) : t.Ready d := by
  induction es generalizing s with
  | nil =>
    unfold pollUntil at h
    split at h
    next v u hpoll =>
      obtain ⟨_, hready⟩ := pollOnce_status hs hpoll
      split at h
      next hok => cases h; exact hready hok
      next => cases h
    next => cases h
  | cons e es ih =>
    unfold pollUntil at h
    split at h
    next v u hpoll =>
      obtain ⟨hlive, hready⟩ := pollOnce_status hs hpoll
      split at h
      next hok => cases h; exact hready hok
      next =>
        split at h
        next u' htick => exact ih (drive_tick_live hlive htick) h
        next => cases h
    next => cases h

/-- WAIT ends in a ready block (30 R81). -/
theorem waitIdle_ready {d : Direction} {b c : Bench} (hb : b.machine.Live d) (h : waitIdle b = some c) :
    c.machine.Ready d := by
  simp only [waitIdle, Bench.pollUntil, Option.map_eq_some_iff] at h
  obtain ⟨⟨t, es⟩, hpoll, rfl⟩ := h
  exact pollUntil_ready hb hpoll

/-- SLEEP leaves a ready block ready (30 R81). -/
theorem sleep_ready {d : Direction} {n : Word} {b c : Bench} (hb : b.machine.Ready d) (h : sleep n b = some c) :
    c.machine.Ready d := by
  simp only [sleep, Option.bind_eq_some_iff] at h
  obtain ⟨b₁, harg, b₂, hdelay, hwait⟩ := h
  have hb₁ : b₁.machine.Live d := issue_live rfl rfl rfl hb.toLive harg
  exact waitIdle_ready (issue_live rfl rfl rfl hb₁ hdelay) hwait

/-- SLEEP T_RELEASE, done or omitted, leaves a ready block ready (60 R245). -/
theorem sleepRelease_ready {d : Direction} {n : Word} {b c : Bench} (hb : b.machine.Ready d)
    (h : sleepRelease n b = some c) : c.machine.Ready d := by
  unfold sleepRelease at h
  split at h
  · cases h
    exact hb
  · exact sleep_ready hb h

/-- CAPTURE leaves a ready block ready (30 R81). -/
theorem capture_ready {d : Direction} {b c : Bench} (hb : b.machine.Ready d) (h : capture b = some c) :
    c.machine.Ready d := by
  simp only [capture, Option.bind_eq_some_iff] at h
  obtain ⟨b₁, hsample, hwait⟩ := h
  exact waitIdle_ready (issue_live rfl rfl rfl hb.toLive hsample) hwait

/-! #### The result -/

/-- DECODE m leaves a ready block ready (43 R180, R181). -/
theorem issue_decode_ready {d : Direction} {m : SensorModel} {b c : Bench} (hb : b.machine.Ready d)
    (h : issue (decodeInstr m) b = some c) : c.machine.Ready d := by
  obtain ⟨u, _, hready, he⟩ := issue_exec (by cases m <;> rfl) hb.toLive h
  have hu : u.Ready d := hready hb
  have hframe := decodeCore_frame m u
  rw [exec_decodeInstr m hu.busy] at he
  rw [← Host.Outcome.next.inj he]
  exact ⟨⟨(congrArg State.resetAsserted hframe :).trans hu.resetAsserted,
    (congrArg State.dir hframe :).trans hu.dir⟩, (congrArg State.act hframe :).trans hu.act⟩

/-- A read leaves a ready block ready (20 R54). -/
theorem readBack_ready {d : Direction} {i : Instr} {b c : Bench} {v : Word} (hwf : i.wellFormed = true)
    (hread : i.isRead = true) (hb : b.machine.Ready d) (h : readBack i b = some (v, c)) : c.machine.Ready d := by
  simp only [readBack, Option.bind_eq_some_iff, Option.map_eq_some_iff, Prod.mk.injEq] at h
  obtain ⟨_, hissue, _, _, _, rfl⟩ := h
  obtain ⟨u, _, hready, he⟩ := issue_exec hwf hb.toLive hissue
  obtain ⟨w, hw⟩ := exec_read hread u
  rw [Host.Outcome.next.inj (he.symm.trans hw)]
  exact ⟨⟨(hready hb).resetAsserted, (hready hb).dir⟩, (hready hb).act⟩

/-- Reading the outcome leaves a ready block ready, whatever the outcome (60 R245). -/
theorem readOutcome_ready {d : Direction} {b c : Bench} {o : ProbeOutcome} (hb : b.machine.Ready d)
    (h : readOutcome b = some (o, c)) : c.machine.Ready d := by
  unfold readOutcome at h
  split at h
  · cases h
  next st b₁ hstatus =>
    have hb₁ : b₁.machine.Ready d := readBack_ready rfl rfl hb hstatus
    split at h
    · simp only [Option.bind_eq_some_iff, Option.map_eq_some_iff, Prod.mk.injEq] at h
      obtain ⟨⟨hum, b₂⟩, hhum, ⟨temp, b₃⟩, htemp, _, rfl⟩ := h
      exact readBack_ready rfl rfl (readBack_ready rfl rfl hb₁ hhum) htemp
    · cases h; exact hb₁
    · cases h; exact hb₁
    · cases h; exact hb₁
    · cases h

/-- Settles O60: every stage of the probe leaves the block ready, and from OD.HIGH on with the line released. -/
theorem probeLeavesLineReleased : Obligations.ProbeLeavesLineReleased := by
  intro m tStartLow tRelease b b' o hb hreset h
  simp only [probeOnce, Option.bind_eq_some_iff] at h
  obtain ⟨b₅, ⟨b₄, ⟨b₃, ⟨b₂, ⟨b₁, hlow, hstart⟩, hhigh⟩, hrelease⟩, hcapture⟩, b₆, hdecode, hread⟩ := h
  have h₀ : b.machine.Ready b.machine.dir := ⟨⟨hreset, rfl⟩, (State.busy_eq_false _).mp hb⟩
  have h₁ : b₁.machine.Ready .output := odLow_ready h₀ hlow
  have h₂ : b₂.machine.Ready .output := sleep_ready h₁ hstart
  have h₃ : b₃.machine.Ready .input := odHigh_ready h₂ hhigh
  have h₄ : b₄.machine.Ready .input := sleepRelease_ready h₃ hrelease
  have h₅ : b₅.machine.Ready .input := capture_ready h₄ hcapture
  have h₆ : b₆.machine.Ready .input := issue_decode_ready h₅ hdecode
  have h₇ : b'.machine.Ready .input := readOutcome_ready h₆ hread
  exact ⟨h₇.dir, h₇.busy⟩

end Sys2Proof.Machine
end

section
/-! The statements about reset, and the SAMPLE of a line that the block drives low itself (70 R260, R261, R268). -/

namespace Sys2Proof.Machine

/-! ### Reset -/

/-- Settles O51: the block is idle after reset, with an empty log. -/
theorem invariantsHoldAfterReset : Obligations.InvariantsHoldAfterReset := fun _ =>
  ⟨legal_of_idle (Nat.zero_le 41) rfl, timed_of_idle rfl, alternates_of_not_sampling rfl,
    durationsBounded_of_not_sampling rfl⟩

/-- The release of an asserted reset (70 R260, R261). -/
theorem step_release {s : State} {d : Config.ResetDraws} {e : Level} {rest : List Event}
    (hag : s.agenda = .resetRelease d e :: rest) (hr : s.resetAsserted = true) :
    step s = .next (State.afterReset d e (s.epoch + 1) s.errReads rest) := by
  rw [step_cons hag]
  exact congrArg Host.Outcome.next (if_pos hr)

section

variable (d : Config.ResetDraws) (e : Level) (epoch errReads : Nat) (agenda : List Event)

/-- Every field of STATUS is 0 right after reset (10 R21, 70 R261). -/
theorem afterReset_statusWord : (State.afterReset d e epoch errReads agenda).statusWord = 0#32 := by
  simp [State.statusWord, State.afterReset, State.busy, DecodeOutcome.code, EndReason.code, Act.code]

/-- CKS is 0 right after reset (10 R30, 70 R261). -/
theorem afterReset_cksWord : (State.afterReset d e epoch errReads agenda).cksWord = 0#32 := by
  simp [State.cksWord, State.afterReset]

/-- Reset releases the line, which has the external level of instant 0 (70 R261, 41 R120). -/
theorem afterReset_pin : (State.afterReset d e epoch errReads agenda).pin = e := pin_of_released rfl

end

/-- Settles O57: the release leaves `State.afterReset`, from which each register is read; STATUS, CKS and PIN are put
together from several fields. -/
theorem resetTable : Obligations.ResetTable := by
  intro s d e rest hag hr
  refine ⟨_, step_release hag hr, rfl, rfl, rfl, rfl, rfl, rfl, rfl, rfl, rfl, ?status, rfl, rfl, rfl, rfl, rfl, ?pin,
    rfl, ?cks, rfl, rfl, rfl, rfl, rfl, rfl, rfl⟩
  case status => exact congrArg (readReg · _) (afterReset_statusWord d e (s.epoch + 1) s.errReads rest)
  case pin => exact afterReset_pin d e (s.epoch + 1) s.errReads rest
  case cks => exact congrArg (readReg · _) (afterReset_cksWord d e (s.epoch + 1) s.errReads rest)

/-- An access while reset is asserted is refused by name (70 R260). -/
theorem performAccess_reset {s : State} (a : Access) (hr : s.resetAsserted = true) :
    performAccess a s = .refused .accessDuringReset :=
  if_pos hr

/-- Settles O58, for each event that may come while reset is asserted, and for the assertion itself. -/
theorem assertedResetHoldsTheBlock : Obligations.AssertedResetHoldsTheBlock :=
  ⟨fun _ _ hag => step_cons hag,
    fun s _ rest hag hr => (step_cons hag).trans (tick_reset (s := { s with agenda := rest }) hr),
    fun s a rest hag hr => (step_cons hag).trans (performAccess_reset (s := { s with agenda := rest }) a hr)⟩

/-! ### A SAMPLE of the block's own drive -/

/-- The break check does not look at the line. -/
theorem breakCheck_releaseLine (u : State) : u.breakCheck.releaseLine = u.releaseLine.breakCheck :=
  apply_ite State.releaseLine (u.breakThr ≤ u.elapsed) (u.stopSample .brk) u

/-- `t` is the sampler `s` after k ticks of a line that the block drives low: but for the direction of the line, as
after k ticks of the held level on a released line (70 R268). -/
structure DrivenLowFor (s : State) (k : Nat) (t : State) : Prop where
  dir : t.dir = .output
  out : t.out = .low
  held : HeldFor s k t.releaseLine

theorem drivenLowFor_zero {s : State} (hr : s.resetAsserted = false) (hdir : s.dir = .output) (hout : s.out = .low) :
    DrivenLowFor s 0 s where
  dir := hdir
  out := hout
  held := { heldFor_zero (s := s.releaseLine) hr rfl with }

/-- The agenda plays no part in it. -/
theorem DrivenLowFor.with_agenda {s t : State} {k : Nat} (h : DrivenLowFor s k t) (rest : List Event) :
    DrivenLowFor s k { t with agenda := rest } where
  dir := h.dir
  out := h.out
  held := h.held.with_agenda rest

/-- The break check of a sampler that goes on, one tick later: it leaves the drive as it is. -/
theorem DrivenLowFor.breakCheck {s t : State} {k : Nat} (h : DrivenLowFor s k t) (hk : k < s.ticksToBreak)
    (e : Level) : DrivenLowFor s (k + 1) (t.advance e).breakCheck := by
  obtain ⟨hdir, hout⟩ := (breakCheck_kept (t.advance e)).sameLine
  refine ⟨hdir.trans h.dir, hout.trans h.out, ?_⟩
  rw [breakCheck_releaseLine]
  exact h.held.breakCheck hk e

/-- A tick of any external level: in LOW the sampler sees the block's own low level, and once ended it stays so. -/
theorem DrivenLowFor.step {s t : State} {k : Nat} {e : Level} {rest : List Event} (h : DrivenLowFor s k t)
    (hlow : s.act = .low) (hag : t.agenda = .tick e :: rest) :
    ∃ u, step t = .next u ∧ u.agenda = rest ∧ DrivenLowFor s (k + 1) u := by
  have hr : t.resetAsserted = false := h.held.outOfReset
  by_cases hk : k < s.ticksToBreak
  · have hact : t.act = .low := (h.held.running hk).1.trans hlow
    have hpin : (({ t with agenda := rest } : State).advance e).pin = .low := pin_of_driven_low h.dir h.out
    have hstep := sequencerStep_held (u := ({ t with agenda := rest } : State).advance e)
      (by simp [hact, Act.sampling]) (hpin.trans (by simp [hact, Act.heldLevel]))
    exact ⟨_, (step_tick hag hr).trans hstep, breakCheck_agenda _, (h.with_agenda rest).breakCheck hk e⟩
  · obtain ⟨hidle, hbrk⟩ := h.held.ended (Nat.le_of_not_lt hk)
    refine ⟨_, idleTickTakesNoStep t e rest hag hr hidle, rfl, h.dir, h.out, ?_⟩
    exact { h.held with
      running := fun hlt => absurd (Nat.lt_of_succ_lt hlt) hk
      ended := fun _ => ⟨hidle, hbrk⟩ }

/-- Any ticks in the LOW of a line that the block drives low. -/
theorem run_driven_low {s : State} {es : List Level} (hlow : s.act = .low) (hr : s.resetAsserted = false)
    (hdir : s.dir = .output) (hout : s.out = .low) (hag : s.agenda = ticks es) :
    ∃ t, run es.length s = .next t ∧ DrivenLowFor s es.length t := by
  obtain ⟨t, hrun, _, hend⟩ := run_ticks (P := DrivenLowFor s) (fun _ _ _ _ _ h hag => h.step hlow hag)
    (drivenLowFor_zero hr hdir hout) (hag.trans (List.append_nil _).symm)
  exact ⟨t, hrun, Nat.zero_add es.length ▸ hend⟩

/-- The first low sample starts the first segment (42 R142). -/
def State.startFirstSegment (u : State) : State := { u with sstart := u.cnt, act := .low }

/-- The first sample of a line that the block drives low is the fall (42 R142). -/
theorem step_fall_of_driven_low {s : State} {e : Level} {rest : List Event} (hact : s.act = .waitFall)
    (hr : s.resetAsserted = false) (hdir : s.dir = .output) (hout : s.out = .low)
    (hag : s.agenda = .tick e :: rest) :
    step s = .next (({ s with agenda := rest } : State).advance e).startFirstSegment := by
  have hpin : (({ s with agenda := rest } : State).advance e).pin = .low := pin_of_driven_low hdir hout
  rw [step_tick hag hr, sequencerStep_waitFall (u := ({ s with agenda := rest } : State).advance e) hact]
  exact congrArg Host.Outcome.next (if_pos hpin)

/-- A SAMPLE that waits on a line that the block drives low falls at its first tick, and the segment that this tick
starts breaks max(T, 1) ticks later, with nothing recorded (42 R142, R146). -/
theorem run_waitFall_driven_low {s : State} {e : Level} {es : List Level} (hact : s.act = .waitFall)
    (hr : s.resetAsserted = false) (hdir : s.dir = .output) (hout : s.out = .low)
    (hag : s.agenda = ticks (e :: es)) (hlen : max s.breakThr.toNat 1 ≤ es.length) :
    ∃ t, run (es.length + 1) s = .next t ∧ t.segcount = s.segcount ∧ t.endReason = .brk ∧ t.act = .idle ∧
      t.seg = s.seg := by
  obtain ⟨t, hrun, hend⟩ := run_driven_low (es := es)
    (s := (({ s with agenda := ticks es } : State).advance e).startFirstSegment) rfl hr hdir hout rfl
  obtain ⟨hidle, hbrk⟩ := hend.held.ended ((ticksToBreak_of_start rfl).trans_le hlen)
  exact ⟨t, (run_succ _ (step_fall_of_driven_low hact hr hdir hout hag)).trans hrun, hend.held.segcount, hbrk, hidle,
    hend.held.seg⟩

/-- Settles O45: SAMPLE waits with an empty log (42 R140), and the rest is `run_waitFall_driven_low`. -/
theorem sampleOfDrivenLowLineBreaks : Obligations.SampleOfDrivenLowLineBreaks := by
  intro s es hb hr hdir hout hlen
  cases es with
  | nil => simp at hlen
  | cons e es =>
    have hlen' : max s.breakThr.toNat 1 ≤ es.length := by
      rw [List.length_cons] at hlen
      omega
    obtain ⟨t, hrun, hresult⟩ := run_waitFall_driven_low
      (s := ({ s with agenda := ticks (e :: es) } : State).startSample.respond .done) rfl hr hdir hout rfl hlen'
    exact ⟨t, (run_succ _ (step_sample hb hr)).trans hrun, hresult⟩

end Sys2Proof.Machine
end
